-- ==== Sys2Proof/Word.lean ====
section
/-! DEFINITION. The widths the spec moves data in: bytes, 32-bit words, sixteen-word blocks, frames (R5, R8, R70). -/

namespace Sys2Proof

/-- A byte; bit 7 is its most significant bit (R8, R70). -/
abbrev Byte := BitVec 8

/-- A word: 32 bits, always unsigned (R8). -/
abbrev Word := BitVec 32

/-- Sixteen words: the shape of S, X and Z (R21, R30, R31). Word `i` stands at row `i / 4`, column `i % 4` of the
matrix view (R26). -/
abbrev Block := Vector Word 16

/-- The 64 bytes of one keystream block: the shape of KS (R32). -/
abbrev KeyBlock := Vector Byte 64

/-- A frame: the bytes between the first and the last byte of one transfer on a channel (R70). -/
abbrev Frame := List Byte

end Sys2Proof
end

