-- ==== Sys2Proof/Syntax.lean ====
section
/-! DEFINITION. The instructions: one constructor for each row of spec/opcode_table.json.

The first six are the commands of R81 and R82; the other eight are the micro-operations of the engine, one for
each entry of the quarter-round index table (R89, R115 to R122). -/

namespace Sys2Proof

/-- An abstract command (R81) or a quarter-round micro-operation (R89). -/
inductive Instr where
  /-- INIT, opcode 0x01, format K (R74, R170). -/
  | init (ctr : Word) (key : List Byte) (nonce : List Byte)
  /-- KSB, opcode 0x02, format C (R73, R171). -/
  | ksb (ctr : Word)
  /-- ENC, opcode 0x03, format D (R75, R172). -/
  | enc (data : List Byte)
  /-- ENCC, opcode 0x04, format CD (R76, R173). -/
  | encc (ctr : Word) (data : List Byte)
  /-- ENCS, opcode 0x05, format D (R75, R174). -/
  | encs (data : List Byte)
  /-- NEXT, opcode 0x06, format N (R72, R175). -/
  | next
  /-- QC0, QRTAB[0] = 0x048C, column 0 (R115). -/
  | qc0
  /-- QC1, QRTAB[1] = 0x159D, column 1 (R116). -/
  | qc1
  /-- QC2, QRTAB[2] = 0x26AE, column 2 (R117). -/
  | qc2
  /-- QC3, QRTAB[3] = 0x37BF, column 3 (R118). -/
  | qc3
  /-- QD0, QRTAB[4] = 0x05AF, diagonal 0 (R119). -/
  | qd0
  /-- QD1, QRTAB[5] = 0x16BC, diagonal 1 (R120). -/
  | qd1
  /-- QD2, QRTAB[6] = 0x278D, diagonal 2 (R121). -/
  | qd2
  /-- QD3, QRTAB[7] = 0x349E, diagonal 3 (R122). -/
  | qd3
  deriving DecidableEq, Repr

/-- Where an instruction's words stand: a frame on the command channel (R70) or an entry of the read-only index
table (R89). The two spaces are apart: a host cannot reach the table (R89, R50). -/
inductive Code where
  | frame (bytes : Frame)
  | entry (word : BitVec 16)
  deriving DecidableEq, Repr

end Sys2Proof
end

