-- ==== Sys2Proof/WellFormed.lean ====
section
/-! DEFINITION. Which instructions an encoding can carry: the lengths that fit the length fields of formats K, D
and CD (R74, R75, R76). A key that is not 32 bytes or a nonce that is not 12 bytes is well formed: it is "a legal
encoding of a request that INIT then refuses" (R85). -/

namespace Sys2Proof

/-- KLEN and NLEN are 8-bit fields (R74). -/
def fitsLen8 (bytes : List Byte) : Bool := decide (bytes.length < 2 ^ 8)

/-- LEN64 is a 64-bit field (R75, R76). -/
def fitsLen64 (bytes : List Byte) : Bool := decide (bytes.length < 2 ^ 64)

/-- The instruction can be encoded. -/
def Instr.wf : Instr → Bool
  | .init _ key nonce => fitsLen8 key && fitsLen8 nonce
  | .ksb _ => true
  | .enc data => fitsLen64 data
  | .encc _ data => fitsLen64 data
  | .encs data => fitsLen64 data
  | .next => true
  | .qc0 => true
  | .qc1 => true
  | .qc2 => true
  | .qc3 => true
  | .qd0 => true
  | .qd1 => true
  | .qd2 => true
  | .qd3 => true

end Sys2Proof
end

