-- ==== Sys2Proof/Decode.lean ====
section
/-! DEFINITION. Byte order, the decoder of command frames and of index-table entries, the encoder, and the
pseudo-commands. Rules: R51, R56 (byte order), R70 to R76, R79 to R86 (frames), R89 (table), R91, R92 (aliases). -/

namespace Sys2Proof

/-! ### Byte order -/

/-- `LE32(b0, b1, b2, b3) = b0 | b1 << 8 | b2 << 16 | b3 << 24`: the first byte of four is the least significant byte
of the word (R11, R51). -/
def le32 (b0 b1 b2 b3 : Byte) : Word :=
  b0.setWidth 32 ||| b1.setWidth 32 <<< 8 ||| b2.setWidth 32 <<< 16 ||| b3.setWidth 32 <<< 24

/-- Byte `k` of a word: bits `8k+7 : 8k` (R55, R136). -/
def byteOf (w : Word) (k : Nat) : Byte := w.extractLsb' (8 * k) 8

/-- `BYTES32`: the four bytes of a word, least significant first (R51). -/
def bytes32 (w : Word) : List Byte := [byteOf w 0, byteOf w 1, byteOf w 2, byteOf w 3]

/-- The number that a byte string denotes, least significant byte first (R56, R79). -/
def leNat : List Byte → Nat
  | [] => 0
  | b :: rest => b.toNat + 256 * leNat rest

/-- `count` bytes of a number, least significant first (R56). -/
def natBytes : (count : Nat) → Nat → List Byte
  | 0, _ => []
  | count + 1, n => BitVec.ofNat 8 n :: natBytes count (n / 256)

/-! ### The fields of a frame -/

/-- Byte `k` of a frame. The decoder reads a byte only after it has seen that the frame is long enough. -/
def byteAt (f : Frame) (k : Nat) : Byte := f.getD k 0

/-- CTR32, at bytes 1..4 in every format that has it (R73, R74, R76, R79). -/
def fieldCtr32 (f : Frame) : Word := le32 (byteAt f 1) (byteAt f 2) (byteAt f 3) (byteAt f 4)

/-- LEN64, the eight bytes from offset `p` (R79). -/
def fieldLen64 (f : Frame) (p : Nat) : Nat := leNat ((f.drop p).take 8)

/-- KLEN, byte 5 of format K (R74, R79). -/
def fieldKlen (f : Frame) : Nat := (byteAt f 5).toNat

/-- NLEN, byte 6 of format K (R74, R79). -/
def fieldNlen (f : Frame) : Nat := (byteAt f 6).toNat

/-! ### The decoder of command frames -/

/-- What decoding a frame answers: a command, or one of the decoder's two rejections by name (R81, R86). -/
inductive Decoded where
  | instr (i : Instr)
  | illegalCommand
  | badFrame
  deriving DecidableEq, Repr

/-- `decode(f)` of R86, line by line. The comparisons are on unbounded integers: `9 + LEN64` does not wrap. -/
def decodeFrame (f : Frame) : Decoded :=
  if f.length = 0 then .badFrame
  else if byteAt f 0 = 0x00 ∨ 0x07 ≤ (byteAt f 0).toNat then .illegalCommand
  else if byteAt f 0 = 0x06 then
    if f.length = 1 then .instr .next else .badFrame
  else if byteAt f 0 = 0x02 then
    if f.length = 5 then .instr (.ksb (fieldCtr32 f)) else .badFrame
  else if byteAt f 0 = 0x01 then
    if 7 ≤ f.length ∧ f.length = 7 + fieldKlen f + fieldNlen f then
      .instr (.init (fieldCtr32 f) ((f.drop 7).take (fieldKlen f)) (f.drop (7 + fieldKlen f)))
    else .badFrame
  else if byteAt f 0 = 0x03 then
    if 9 ≤ f.length ∧ f.length = 9 + fieldLen64 f 1 then .instr (.enc (f.drop 9)) else .badFrame
  else if byteAt f 0 = 0x05 then
    if 9 ≤ f.length ∧ f.length = 9 + fieldLen64 f 1 then .instr (.encs (f.drop 9)) else .badFrame
  else
    if 13 ≤ f.length ∧ f.length = 13 + fieldLen64 f 5 then
      .instr (.encc (fieldCtr32 f) (f.drop 13)) else .badFrame

/-! ### The quarter-round index table -/

/-- QRTAB: eight 16-bit entries, entries 0..3 the columns and 4..7 the diagonals (R89, R113). Wiring, not state. -/
def qrtab : Vector (BitVec 16) 8 :=
  #v[0x048C, 0x159D, 0x26AE, 0x37BF, 0x05AF, 0x16BC, 0x278D, 0x349E]

/-- The four word indices of one quarter-round application, in the operand roles a, b, c, d (R89, R113). -/
structure IndexGroup where
  a : Fin 16
  b : Fin 16
  c : Fin 16
  d : Fin 16
  deriving DecidableEq, Repr

/-- The fields of a table entry: a = bits 15:12, b = 11:8, c = 7:4, d = 3:0 (R89). -/
def entryGroup (w : BitVec 16) : IndexGroup where
  a := (w.extractLsb' 12 4).toFin
  b := (w.extractLsb' 8 4).toFin
  c := (w.extractLsb' 4 4).toFin
  d := (w.extractLsb' 0 4).toFin

/-- The micro-operation that a 16-bit word of format Q names, if it is an entry of the table (R89). -/
def decodeEntry (w : BitVec 16) : Option Instr :=
  if w = 0x048C then some .qc0
  else if w = 0x159D then some .qc1
  else if w = 0x26AE then some .qc2
  else if w = 0x37BF then some .qc3
  else if w = 0x05AF then some .qd0
  else if w = 0x16BC then some .qd1
  else if w = 0x278D then some .qd2
  else if w = 0x349E then some .qd3
  else none

/-- Decoding of either kind of code; `none` where the decoder rejects the words. -/
def decode : Code → Option Instr
  | .frame f =>
    match decodeFrame f with
    | .instr i => some i
    | .illegalCommand => none
    | .badFrame => none
  | .entry w => decodeEntry w

/-! ### The encoder -/

/-- Format K: opcode, CTR32, KLEN, NLEN, KEY, NONCE (R74). -/
def encodeK (opc : Byte) (ctr : Word) (key nonce : List Byte) : Frame :=
  opc :: (bytes32 ctr ++ (BitVec.ofNat 8 key.length :: BitVec.ofNat 8 nonce.length :: (key ++ nonce)))

/-- Format D: opcode, LEN64, DATA (R75). -/
def encodeD (opc : Byte) (data : List Byte) : Frame := opc :: (natBytes 8 data.length ++ data)

/-- Format CD: opcode, CTR32, LEN64, DATA (R76). -/
def encodeCD (opc : Byte) (ctr : Word) (data : List Byte) : Frame :=
  opc :: (bytes32 ctr ++ (natBytes 8 data.length ++ data))

/-- The words of an instruction, from R72 to R76, R82 and R89. -/
def encode : Instr → Code
  | .init ctr key nonce => .frame (encodeK 0x01 ctr key nonce)
  | .ksb ctr => .frame (0x02 :: bytes32 ctr)
  | .enc data => .frame (encodeD 0x03 data)
  | .encc ctr data => .frame (encodeCD 0x04 ctr data)
  | .encs data => .frame (encodeD 0x05 data)
  | .next => .frame [0x06]
  | .qc0 => .entry 0x048C
  | .qc1 => .entry 0x159D
  | .qc2 => .entry 0x26AE
  | .qc3 => .entry 0x37BF
  | .qd0 => .entry 0x05AF
  | .qd1 => .entry 0x16BC
  | .qd2 => .entry 0x278D
  | .qd3 => .entry 0x349E

/-! ### Pseudo-commands: other names of the same frames -/

/-- DEC assembles as ENC (R91, R176). -/
def Instr.dec (data : List Byte) : Instr := .enc data

/-- DECC assembles as ENCC (R91, R176). -/
def Instr.decc (ctr : Word) (data : List Byte) : Instr := .encc ctr data

/-- DECS assembles as ENCS (R91, R176). -/
def Instr.decs (data : List Byte) : Instr := .encs data

/-- KSTR assembles as ENCC with `n` zero bytes (R92). -/
def Instr.kstr (ctr : Word) (n : Nat) : Instr := .encc ctr (List.replicate n 0)

/-- A data operand as a line of text gives it: hex pairs or an ASCII string standing for its bytes (R90). -/
inductive DataText where
  | hex (bytes : List Byte)
  | str (text : String)
  deriving DecidableEq, Repr

/-- The bytes of a data operand (R90). -/
def dataBytes : DataText → List Byte
  | .hex bytes => bytes
  | .str text => text.toList.map fun ch => BitVec.ofNat 8 ch.toNat

/-- The lines of the textual syntax, one constructor for each command and pseudo-command of R90, R91 and R92, with its
operands as numbers and bytes (the reading of digits is not modelled; assumption log 12). -/
inductive AsmLine where
  | init (ctr : Word) (key nonce : List Byte)
  | ksb (ctr : Word)
  | enc (data : DataText)
  | encc (ctr : Word) (data : DataText)
  | encs (data : DataText)
  | next
  | dec (data : DataText)
  | decc (ctr : Word) (data : DataText)
  | decs (data : DataText)
  | kstr (ctr : Word) (n : Nat)
  deriving DecidableEq, Repr

/-- The command a line assembles to (R90, R91, R92). -/
def assemble : AsmLine → Instr
  | .init ctr key nonce => .init ctr key nonce
  | .ksb ctr => .ksb ctr
  | .enc data => .enc (dataBytes data)
  | .encc ctr data => .encc ctr (dataBytes data)
  | .encs data => .encs (dataBytes data)
  | .next => .next
  | .dec data => .dec (dataBytes data)
  | .decc ctr data => .decc ctr (dataBytes data)
  | .decs data => .decs (dataBytes data)
  | .kstr ctr n => .kstr ctr n

/-! ### The opcode table's words -/

/-- The header length of the format an opcode byte selects (R72 to R76); a reserved opcode has only itself. -/
def headerLength (opc : Byte) : Nat :=
  if opc = 0x01 then 7
  else if opc = 0x02 then 5
  else if opc = 0x03 ∨ opc = 0x05 then 9
  else if opc = 0x04 then 13
  else 1

/-- The payload bytes that a frame's header declares (R74, R75, R76). -/
def declaredPayload (f : Frame) : Nat :=
  if byteAt f 0 = 0x01 then fieldKlen f + fieldNlen f
  else if byteAt f 0 = 0x03 ∨ byteAt f 0 = 0x05 then fieldLen64 f 1
  else if byteAt f 0 = 0x04 then fieldLen64 f 5
  else 0

/-- A frame followed by zero bytes up to `len` bytes. -/
def padTo (len : Nat) (f : Frame) : Frame := f ++ List.replicate (len - f.length) 0

/-- The command frame whose first `nbits` bits are those of `w`, bit 0 the least significant bit of byte 0, and whose
other bits are 0: the bytes of `w`, then zero bytes up to the length the format and its header give. -/
def tableFrame (nbits w : Nat) : Frame :=
  let first := natBytes (nbits / 8) w
  let header := padTo (headerLength (byteAt first 0)) first
  padTo (headerLength (byteAt first 0) + declaredPayload header) header

/-- What the decoder reads from an opcode-table word: a 16-bit word that is an entry of QRTAB is that entry, any
other word is the start of a command frame. No entry's low byte is a defined opcode, so the two never meet. -/
def decodeTableWord (nbits w : Nat) : Option Instr :=
  if nbits = 16 ∧ (decodeEntry (BitVec.ofNat 16 w)).isSome then decode (.entry (BitVec.ofNat 16 w))
  else decode (.frame (tableFrame nbits w))

end Sys2Proof
end

