-- ==== Sys2Proof/Machine/Datapath.lean ====
section
/-! DEFINITION. The computation of the core as functions on words and sixteen-word states: the 32-bit primitives
(R100 to R107), the quarter-round and its application through the index table (R110 to R123), and the block function
(R131 to R137). None of them touches the machine's state; Machine/Engine.lean is the hardware that computes them. -/

namespace Sys2Proof.Machine

/-! ### Primitives -/

/-- `ADD32(x, y) = (x + y) mod 2^32` (R101). -/
def add32 (x y : Word) : Word := x + y

/-- `XOR32(x, y)`, bitwise exclusive-or (R102). -/
def xor32 (x y : Word) : Word := x ^^^ y

/-- `ROTL32(x, n) = ((x << n) | (x >> (32 − n))) mod 2^32`, for 1 ≤ n ≤ 31 (R103). -/
def rotl32 (x : Word) (n : Nat) : Word := (x <<< n) ||| (x >>> (32 - n))

/-- `ROTR32(x, n) = ROTL32(x, 32 − n)`, for 1 ≤ n ≤ 31; no unit of the hardware (R104). -/
def rotr32 (x : Word) (n : Nat) : Word := rotl32 x (32 - n)

/-- `SUB32(x, y) = (x − y) mod 2^32`; no unit of the hardware (R105). -/
def sub32 (x y : Word) : Word := x - y

/-- `ARX`, the add-xor-rotate step: the addition first, the exclusive-or with the new sum second, the rotation
last (R106). Answers the new x and the new z. -/
def arx (x y z : Word) (r : Nat) : Word × Word :=
  let x' := add32 x y
  (x', rotl32 (xor32 z x') r)

/-! ### The quarter-round -/

/-- Four words in the operand roles a, b, c, d of the quarter-round (R110). -/
structure Quad where
  a : Word
  b : Word
  c : Word
  d : Word
  deriving DecidableEq, Repr

/-- `QR`, the quarter-round: four ARX steps with the amounts 16, 12, 8, 7 (R110). -/
def qr (q : Quad) : Quad :=
  let (a1, d1) := arx q.a q.b q.d 16
  let (c1, b1) := arx q.c d1 q.b 12
  let (a2, d2) := arx a1 b1 d1 8
  let (c2, b2) := arx c1 d2 b1 7
  ⟨a2, b2, c2, d2⟩

/-- `QRINV`, the inverse of the quarter-round; no unit of the hardware (R112). -/
def qrInv (q : Quad) : Quad :=
  let b1 := xor32 (rotr32 q.b 7) q.c
  let c1 := sub32 q.c q.d
  let d1 := xor32 (rotr32 q.d 8) q.a
  let a1 := sub32 q.a b1
  let b2 := xor32 (rotr32 b1 12) c1
  let c2 := sub32 c1 d1
  let d2 := xor32 (rotr32 d1 16) a1
  let a2 := sub32 a1 b2
  ⟨a2, b2, c2, d2⟩

/-! ### Applying it to a sixteen-word state -/

/-- The index group of entry `t` of QRTAB (R113). -/
def group (t : Fin 8) : IndexGroup := entryGroup qrtab[t]

/-- The four words an index group names, in its operand roles (R113). -/
def readGroup (x : Block) (g : IndexGroup) : Quad := ⟨x[g.a], x[g.b], x[g.c], x[g.d]⟩

/-- Writes four words to the places an index group names (R113). -/
def writeGroup (x : Block) (g : IndexGroup) (q : Quad) : Block :=
  (((x.set g.a q.a).set g.b q.b).set g.c q.c).set g.d q.d

/-- `QRAPPLY(X, t)`: four reads, then four writes (R113). -/
def qrApply (x : Block) (t : Fin 8) : Block := writeGroup x (group t) (qr (readGroup x (group t)))

/-- What undoes `QRAPPLY(X, t)`: QRINV through the same entry (R151). -/
def qrUnapply (x : Block) (t : Fin 8) : Block := writeGroup x (group t) (qrInv (readGroup x (group t)))

/-! ### The block function -/

/-- `COLROUND(X)`: the four column applications (R131). -/
def colRound (x : Block) : Block := qrApply (qrApply (qrApply (qrApply x 0) 1) 2) 3

/-- `DIAGROUND(X)`: the four diagonal applications (R132). -/
def diagRound (x : Block) : Block := qrApply (qrApply (qrApply (qrApply x 4) 5) 6) 7

/-- `DOUBLEROUND(X) = DIAGROUND(COLROUND(X))` (R133). -/
def doubleRound (x : Block) : Block := diagRound (colRound x)

/-- `n` double-rounds in sequence (R134). -/
def doubleRounds : (n : Nat) → Block → Block
  | 0, x => x
  | n + 1, x => doubleRound (doubleRounds n x)

/-- `PERM(X)`: NDR = 10 double-rounds, the 20-round permutation (R134). -/
def perm (x : Block) : Block := doubleRounds 10 x

/-- The inverse of a double-round: QRINV through the entries 7, 6, …, 0 (R151). -/
def doubleRoundInv (x : Block) : Block :=
  [7, 6, 5, 4, 3, 2, 1, 0].foldl qrUnapply x

/-- The inverse of PERM: ten times the inverse of a double-round (R151). -/
def permInv (x : Block) : Block := (List.range 10).foldl (fun y _ => doubleRoundInv y) x

/-- `FADD`: `Z[i] = ADD32(X[i], S[i])` for all sixteen words, no carry between words (R135). -/
def finalAdd (x s : Block) : Block := Vector.ofFn fun i : Fin 16 => add32 x[i] s[i]

/-- `SER`: `KS[4i+k] = Z[i][8k+7:8k]` (R136). -/
def serialise (z : Block) : KeyBlock := Vector.ofFn fun j : Fin 64 => byteOf (z[j.val / 4]'(by omega)) (j.val % 4)

/-- `BLOCK(S)`: the permuted words added once to the input words (R137, R139). -/
def block (s : Block) : Block := finalAdd (perm s) s

/-- `KSBYTES(S) = SER(BLOCK(S))` (R137). -/
def ksBytes (s : Block) : KeyBlock := serialise (block s)

end Sys2Proof.Machine
end

