-- ==== Sys2Proof/Config.lean ====
section
/-! DEFINITION. What the spec lets an implementation choose, and how this model fixes it.

Rule R6 leaves two parameters open: NQR, the quarter-round units of an engine, and NENG, the engines.
"No value of these parameters changes any value the core returns", so the model has one quarter-round unit
and one engine (NQR = 1, NENG = 1; assumption log 1) and only the order in which that unit serves the four
lane slots of a phase has to be named. Nothing else in the core is left to the realisation (R250), so there
is no free value in this model. -/

namespace Sys2Proof.Config

/-- The order in which the one quarter-round unit serves the lanes of a phase (R146: "one after another in any
order"; 93_implementation_defined.md U5). DESIGN CHOICE, safe: every order gives the same X (R148), and the
obligation `EveryScheduleDeliversTheKeystream` quantifies over all of them. Assumption log 1. -/
def laneOrder : List (Fin 4) := [0, 1, 2, 3]

end Sys2Proof.Config
end

