-- ==== Sys2Proof/Machine/State.lean ====
section
/-! DEFINITION. The state of the core (R20), its reset value (R37, R231), and the reasons a step can stop.

S[0..3] are wiring and have no field: `constants` in Machine/Operands.lean is what they read as, and no operation
writes them (R22, R40). Everything else of R20's table is a field, the transient registers too, and so are the two
channels of R70. -/

namespace Sys2Proof.Machine

/-- A phase of the engine: a column round or a diagonal round (R33). -/
inductive Phase where
  | col
  | diag
  deriving DecidableEq, Repr

/-- The lanes that have finished the present phase: the subset `done` of R33, lane by lane. -/
abbrev Lanes := Vector Bool 4

/-- No lane has finished: ∅. -/
def noLanes : Lanes := #v[false, false, false, false]

/-- Every lane has finished: {0, 1, 2, 3}. -/
def allLanes : Lanes := #v[true, true, true, true]

/-- ESEQ, the engine's sequencer (R33). -/
inductive Eseq where
  /-- No block in progress. -/
  | idle
  /-- Double-round `dr`, phase `ph`, with the lanes `done` finished. -/
  | round (dr : Fin 10) (ph : Phase) (done : Lanes)
  /-- Rounds complete, finalisation pending: FINAL. -/
  | final
  /-- Finalised, serialisation pending: SERIAL. -/
  | serial
  /-- KS valid: DONE. -/
  | done
  deriving DecidableEq, Repr

/-- The six errors (R200). Each is a status a command is answered with, not a stop of the machine. -/
inductive ErrorCode where
  | invalidKeyLength
  | invalidNonceLength
  | counterOverflow
  | notKeyed
  | illegalCommand
  | badFrame
  deriving DecidableEq, Repr

/-- A response before it is framed: OK with a payload, or an error, which never has one (R77, R87). The reserved
status bytes cannot be expressed (R85). -/
inductive Response where
  | ok (payload : List Byte)
  | error (e : ErrorCode)
  deriving DecidableEq, Repr

/-- Why a step can stop with a fault. -/
inductive Fault where
  /-- Raised by `step` alone, if a word read from QRTAB for a lane were no entry of format Q. QRTAB is wiring and
  each of its words is one, so this never happens (lemma `Sys2Proof.Laws.fetchLane_decodes`); safe. The core itself
  has no such outcome: "the core never hangs, never refuses to answer" (R215). -/
  | notATableEntry
  deriving DecidableEq, Repr

/-- Why a step can be refused. -/
inductive Refusal where
  /-- Raised by `exec` for an instruction that has no meaning in the model; safe. No arm raises it. -/
  | notModelled (mnemonic : String)
  deriving DecidableEq, Repr

/-- The state of the core (R20) and of its two channels (R70). -/
structure State where
  /-- S[4..11], the key words (R23). -/
  key : Vector Word 8
  /-- S[12], BC, the block counter word (R24). -/
  bc : Word
  /-- S[13..15], the nonce words (R25). -/
  nonce : Vector Word 3
  /-- IC, the initial counter (R27). -/
  ic : Word
  /-- CTR, the cursor of the continuous mode; bit 32 is EXH (R28). -/
  ctr : BitVec 33
  /-- KEYED (R29). -/
  keyed : Bool
  /-- X, the engine's working register (R30). -/
  x : Block
  /-- Z, the finalised words (R31). -/
  z : Block
  /-- KS, the keystream block buffer (R32). -/
  ks : KeyBlock
  /-- ESEQ, the engine's sequencer (R33). -/
  eseq : Eseq
  /-- BASE, the counter of chunk 0 of a data command (R34). -/
  base : Word
  /-- NBLK, the number of chunks of a data command (R34). -/
  nblk : BitVec 59
  /-- BI, the index of the chunk in progress (R34). -/
  bi : BitVec 59
  /-- The command channel: the frames sent and not yet taken, the next one first (R70, R236). -/
  cmdIn : List Frame
  /-- The response channel: the frames emitted and not yet taken by the host, the oldest first (R60, R70). -/
  rspOut : List Frame
  deriving DecidableEq, Repr

/-- The state right after reset (R37, R231): KEYED = 0, ESEQ = IDLE, both channels empty. The spec gives every other
register "no value"; the model holds zero there (DESIGN CHOICE, assumption log 2), and R38 lets it, since no rule reads
them while KEYED = 0. -/
def State.reset : State where
  key := Vector.replicate 8 0
  bc := 0
  nonce := Vector.replicate 3 0
  ic := 0
  ctr := 0
  keyed := false
  x := Vector.replicate 16 0
  z := Vector.replicate 16 0
  ks := Vector.replicate 64 0
  eseq := .idle
  base := 0
  nblk := 0
  bi := 0
  cmdIn := []
  rspOut := []

end Sys2Proof.Machine
end

