-- ==== Sys2Proof/Machine/Operands.lean ====
section
/-! DEFINITION. The operand forms: the words of S (R21 to R26), packing of key and nonce bytes (R23, R25), the table
entry of a lane (R141), and the reading, cutting and combining of a data payload (R57, R161, R162). -/

namespace Sys2Proof.Machine

/-! ### The words of S -/

/-- S[0..3]: the ASCII bytes of `expand 32-byte k` packed with LE32; wiring, identical in every core (R22). -/
def constants : Vector Word 4 := #v[0x61707865, 0x3320646e, 0x79622d32, 0x6b206574]

/-- The sixteen words of S from its key words, counter word and nonce words (R21, R26). -/
def inputWords (key : Vector Word 8) (bc : Word) (nonce : Vector Word 3) : Block :=
  #v[constants[0], constants[1], constants[2], constants[3],
     key[0], key[1], key[2], key[3],
     key[4], key[5], key[6], key[7],
     bc, nonce[0], nonce[1], nonce[2]]

/-- The register S as the engine and the adder read it (R21). -/
def sWords (s : State) : Block := inputWords s.key s.bc s.nonce

/-- Word `j` of a byte string packed with LE32 (R23, R25). INIT packs only strings it has found long enough. -/
def packWord (bytes : List Byte) (j : Nat) : Word :=
  le32 (byteAt bytes (4 * j)) (byteAt bytes (4 * j + 1)) (byteAt bytes (4 * j + 2)) (byteAt bytes (4 * j + 3))

/-- The eight key words of a 32-byte key (R23). -/
def packKey (key : List Byte) : Vector Word 8 := Vector.ofFn fun j : Fin 8 => packWord key j.val

/-- The three nonce words of a 12-byte nonce (R25). -/
def packNonce (nonce : List Byte) : Vector Word 3 := Vector.ofFn fun j : Fin 3 => packWord nonce j.val

/-! ### The table entry of a lane -/

/-- The entry lane `l` uses in a phase: `4·ph + l` with ph = 0 for COL and 1 for DIAG (R141, R146). -/
def tableIndex (ph : Phase) (l : Fin 4) : Fin 8 :=
  match ph with
  | .col => ⟨l.val, by omega⟩
  | .diag => ⟨4 + l.val, by omega⟩

/-! ### Payloads -/

/-- `MemRead(k, n)`: the `n` bytes at offsets k .. k+n−1 of a data payload (R11). -/
def memRead (payload : List Byte) (k n : Nat) : List Byte := (payload.drop k).take n

/-- `CHUNK(data, i)`: the bytes at offsets 64·i up to but not including min(64·i + 64, len) (R57, R161). -/
def chunk (data : List Byte) (i : Nat) : List Byte := memRead data (64 * i) (min 64 (data.length - 64 * i))

/-- `XORCHUNK(chunk, ks)`: keystream byte k meets data byte k, and the rest of the block is dropped (R162). -/
def xorChunk (c : List Byte) (ks : List Byte) : List Byte := List.zipWith (· ^^^ ·) c ks

end Sys2Proof.Machine
end

