-- ==== Sys2Proof/Machine/Flags.lean ====
section
/-! DEFINITION. The tests a command makes on the flags and counters: EXH (R28), the number of blocks of a payload
(R57) and the counter range check (R163). KEYED is a field of the state (R29). The sums here are not ADD32: they are
formed without wrap-around (R107 (g)). -/

namespace Sys2Proof.Machine

/-- EXH, bit 32 of CTR (R28). -/
def exh (s : State) : Bool := s.ctr.getLsbD 32

/-- CTR[31:0] (R28). -/
def ctrLow (s : State) : Word := s.ctr.setWidth 32

/-- The largest block counter, 0xFFFFFFFF (R5). -/
def maxCounter : Nat := 0xFFFFFFFF

/-- `NBLK = ceil(len / 64) = (len + 63) div 64` (R57, R163). -/
def numBlocks (len : Nat) : Nat := (len + 63) / 64

/-- `OVFCHECK(base, len)`: true when it raises CounterOverflow (R163). -/
def ovfCheck (base len : Nat) : Bool :=
  decide (0 < numBlocks len) && decide (maxCounter < base + numBlocks len - 1)

/-- NEXT's test `CTR > 0xFFFFFFFF` (R175). -/
def ctrExhausted (s : State) : Bool := decide (maxCounter < s.ctr.toNat)

end Sys2Proof.Machine
end

