-- ==== Sys2Proof/Machine/Ops.lean ====
section
/-! DEFINITION. The named operations over the registers and the channels: framing and emitting a response (R77),
the refusal sequence (R209), loading a key and a nonce (R170), the driver's counter writes (R160, R174), the
quarter-round micro-operation on X (R113), and what the outside does to the core: reset, sending a frame and taking a
response (R230, R231, R236).

The core has no memory, so there is no operation over memory here (R50). -/

namespace Sys2Proof.Machine

/-! ### Responses -/

/-- The status byte of an error (R87). -/
def ErrorCode.status : ErrorCode → Byte
  | .invalidKeyLength => 0x01
  | .invalidNonceLength => 0x02
  | .counterOverflow => 0x03
  | .notKeyed => 0x04
  | .illegalCommand => 0x05
  | .badFrame => 0x06

/-- Format R: STATUS, RLEN64, PAYLOAD; an error is nine bytes with no payload (R77, R211). -/
def Response.frame : Response → Frame
  | .ok payload => 0x00 :: (natBytes 8 payload.length ++ payload)
  | .error e => e.status :: natBytes 8 0

/-- Emits a response frame on the response channel (R60, R70). -/
def respond (r : Response) (s : State) : State := { s with rspOut := s.rspOut ++ [r.frame] }

/-- The refusal sequence, `raise E` (R209): the one operation that stands for taking an exception. `isInit` says that
byte 0 of the frame is 0x01, in which case KEYED is cleared (R210). There is no vector, no handler and no saved
register, and so no return: the core accepts the next frame (R213). -/
def raise (e : ErrorCode) (isInit : Bool) (s : State) : State :=
  respond (.error e) { s with keyed := s.keyed && !isInit, eseq := .idle }

/-- Byte 0 of the frame is the opcode of INIT (R84, R209). -/
def isInitFrame (f : Frame) : Bool := decide (0 < f.length) && decide (byteAt f 0 = 0x01)

/-! ### Loading and counting -/

/-- INIT's loads: key words, counter word, nonce words, IC, CTR, and KEYED last (R170). -/
def loadInstance (ctr : Word) (key nonce : List Byte) (s : State) : State :=
  { s with
    key := packKey key
    bc := ctr
    nonce := packNonce nonce
    ic := ctr
    ctr := ctr.setWidth 33
    keyed := true }

/-- The driver's counter write `S[12] <- c` (R160). -/
def writeCounter (c : Word) (s : State) : State := { s with bc := c }

/-- `CTR <- CTR + 1`, 33 bits (R174, R175). -/
def advanceCursor (s : State) : State := { s with ctr := s.ctr + 1 }

/-- The loop registers at the start of a data command (R34). -/
def beginData (base : Word) (blocks : Nat) (s : State) : State :=
  { s with base := base, nblk := BitVec.ofNat 59 blocks }

/-- BI, the chunk in progress (R34). -/
def beginChunk (i : Nat) (s : State) : State := { s with bi := BitVec.ofNat 59 i }

/-! ### The micro-operation of the eight table entries -/

/-- `QRAPPLY(X, t)` on the working register (R113). -/
def applyEntry (t : Fin 8) (s : State) : State := { s with x := qrApply s.x t }

/-- `done <- done ∪ {l}` (R141); only inside a phase. -/
def markLane (l : Fin 4) (s : State) : State :=
  match s.eseq with
  | .idle => s
  | .round dr ph done => { s with eseq := .round dr ph (done.set l true) }
  | .final => s
  | .serial => s
  | .done => s

/-! ### The outside -/

/-- The frame at the head of the command channel is taken (R236). -/
def takeFrame (s : State) : State := { s with cmdIn := s.cmdIn.tail }

/-- The host puts one whole frame on the command channel, behind those already there (R70, R236). -/
def send (f : Frame) (s : State) : State := { s with cmdIn := s.cmdIn ++ [f] }

/-- The host takes the oldest response frame (R246). -/
def takeResponse (s : State) : State := { s with rspOut := s.rspOut.tail }

/-- Reset of a core in any state (R231): KEYED and ESEQ are written and the channels are empty; "nothing else is
written", so the other registers keep bits that no rule reads (R38). That frames waiting in the command channel are
lost is the model's choice (assumption log 6). -/
def applyReset (s : State) : State := { s with keyed := false, eseq := .idle, cmdIn := [], rspOut := [] }

end Sys2Proof.Machine
end

