-- ==== Sys2Proof/Machine/Engine.lean ====
section
/-! DEFINITION. The engine as a machine: the six kinds of step of R140 to R145, when each is enabled, the runs they
allow (R147), and the run of one block that the driver asks for (R160). -/

namespace Sys2Proof.Machine

/-- The steps of the engine (R140 to R145). -/
inductive EngineAct where
  | start
  | lane (l : Fin 4)
  | barrier
  | fadd
  | ser
  | take
  deriving DecidableEq, Repr

/-- The step is enabled in this sequencer state (R140 to R145). That E-START also waits for the driver's request is
said where the driver requests a block, in `runBlock`. -/
def EngineAct.enabled : EngineAct → Eseq → Bool
  | .start, .idle => true
  | .lane l, .round _ _ done => !done[l]
  | .barrier, .round _ _ done => decide (done = allLanes)
  | .fadd, .final => true
  | .ser, .serial => true
  | .take, .done => true
  | _, _ => false

/-- Where the sequencer goes from a barrier (R142). -/
def afterBarrier (dr : Fin 10) (ph : Phase) : Eseq :=
  match ph with
  | .col => .round dr .diag noLanes
  | .diag => if h : dr.val < 9 then .round ⟨dr.val + 1, by omega⟩ .col noLanes else .final

/-- E-START: XLOAD, and the first phase begins (R130, R140). -/
def engineStart (s : State) : State := { s with x := sWords s, eseq := .round 0 .col noLanes }

/-- E-LANE(l): QRAPPLY with the entry of the phase and the lane (R141). -/
def engineLane (l : Fin 4) (s : State) : State :=
  match s.eseq with
  | .idle => s
  | .round _ ph _ => markLane l (applyEntry (tableIndex ph l) s)
  | .final => s
  | .serial => s
  | .done => s

/-- E-BARRIER: X is not changed (R142). -/
def engineBarrier (s : State) : State :=
  match s.eseq with
  | .idle => s
  | .round dr ph _ => { s with eseq := afterBarrier dr ph }
  | .final => s
  | .serial => s
  | .done => s

/-- E-FADD: the finalisation from X and S into Z (R143). -/
def engineFadd (s : State) : State := { s with z := finalAdd s.x (sWords s), eseq := .serial }

/-- E-SER: the serialisation from Z into KS (R144). -/
def engineSer (s : State) : State := { s with ks := serialise s.z, eseq := .done }

/-- E-TAKE: the driver takes KS; the sequencer is idle again (R145). -/
def engineTake (s : State) : State := { s with eseq := .idle }

/-- The effect of a step of the engine. -/
def engineDo : EngineAct → State → State
  | .start, s => engineStart s
  | .lane l, s => engineLane l s
  | .barrier, s => engineBarrier s
  | .fadd, s => engineFadd s
  | .ser, s => engineSer s
  | .take, s => engineTake s

/-- A sequence of steps is allowed from a state when each is enabled where it is taken (R147). -/
def allowed : List EngineAct → State → Prop
  | [], _ => True
  | a :: rest, s => a.enabled s.eseq = true ∧ allowed rest (engineDo a s)

/-- The state after a sequence of steps. -/
def engineRun (acts : List EngineAct) (s : State) : State := acts.foldl (fun t a => engineDo a t) s

/-- One phase in the model's lane order: four lane steps and the barrier (R61, R141, R142). -/
def phaseActs : List EngineAct := Config.laneOrder.map .lane ++ [.barrier]

/-- The steps of one block in the model's lane order: E-START, twenty phases, E-FADD, E-SER, E-TAKE (R148). -/
def blockActs : List EngineAct :=
  [.start] ++ (List.replicate 20 phaseActs).flatten ++ [.fadd, .ser, .take]

/-- `KSBLOCK(c)`: the counter write, then the engine from E-START to E-TAKE (R160). The block is left in KS. -/
def ksBlock (c : Word) (s : State) : State := engineRun blockActs (writeCounter c s)

/-- The lane that the one quarter-round unit serves next: the first in the lane order that has not finished. -/
def nextLane (done : Lanes) : Option (Fin 4) := Config.laneOrder.find? fun l => !done[l]

end Sys2Proof.Machine
end

