-- ==== Sys2Proof/Machine/Stream.lean ====
section
/-! DEFINITION. The driver's loop: STREAMXOR (R164) and its continuous form (R174), which run the engine once per
chunk, and the same result as a function of key, nonce and counter (R164, R174 "the result equals"). -/

namespace Sys2Proof.Machine

/-- What one turn of the loop leaves: the state and the output so far. -/
abbrev Progress := State × List Byte

/-- One turn of STREAMXOR: the block of counter base + i, xored onto chunk i (R164). -/
def streamTurn (base : Nat) (data : List Byte) (p : Progress) (i : Nat) : Progress :=
  let s := ksBlock (BitVec.ofNat 32 (base + i)) (beginChunk i p.1)
  (s, p.2 ++ xorChunk (chunk data i) s.ks.toList)

/-- `STREAMXOR(base, data)` (R164). -/
def streamXor (base : Word) (data : List Byte) (s : State) : Progress :=
  (List.range (numBlocks data.length)).foldl (streamTurn base.toNat data)
    (beginData base (numBlocks data.length) s, [])

/-- One turn of the continuous loop: the block of counter CTR[31:0], xored onto chunk i, then CTR + 1 (R174). -/
def cursorTurn (data : List Byte) (p : Progress) (i : Nat) : Progress :=
  let s := ksBlock (ctrLow p.1) (beginChunk i p.1)
  (advanceCursor s, p.2 ++ xorChunk (chunk data i) s.ks.toList)

/-- The loop of ENCS (R174). -/
def cursorXor (data : List Byte) (s : State) : Progress :=
  (List.range (numBlocks data.length)).foldl (cursorTurn data)
    (beginData (ctrLow s) (numBlocks data.length) s, [])

/-! ### The same as functions -/

/-- The 64 keystream bytes of counter `c` under a key and a nonce (R160: a function of S[4..11], S[13..15] and c
only). -/
def keystreamBlock (key : Vector Word 8) (nonce : Vector Word 3) (c : Word) : List Byte :=
  (ksBytes (inputWords key c nonce)).toList

/-- `STREAMXOR(base, data)` as a function: the chunks xored with the blocks of counters base, base + 1, …, in
order (R164). -/
def xorStream (key : Vector Word 8) (nonce : Vector Word 3) (base : Nat) (data : List Byte) : List Byte :=
  (List.range (numBlocks data.length)).flatMap fun i =>
    xorChunk (chunk data i) (keystreamBlock key nonce (BitVec.ofNat 32 (base + i)))

end Sys2Proof.Machine
end

