-- ==== Sys2Proof/Machine/Commands.lean ====
section
/-! DEFINITION. The meanings of the six commands (R170 to R175). A command is atomic: its meaning is the state after
its response has been emitted (R12, R58). An error response is a next state, not a fault: the core answers and goes on
(R209, R212, R215). -/

namespace Sys2Proof.Machine

/-- INIT (R170): the old state is given up first; the key's length is tested before the nonce's. -/
def execInit (ctr : Word) (key nonce : List Byte) (s : State) : Host.Outcome State Fault Refusal :=
  if key.length ≠ 32 then .next (raise .invalidKeyLength true s)
  else if nonce.length ≠ 12 then .next (raise .invalidNonceLength true s)
  else .next (respond (.ok []) (loadInstance ctr key nonce { s with keyed := false }))

/-- KSB (R171). -/
def execKsb (ctr : Word) (s : State) : Host.Outcome State Fault Refusal :=
  if s.keyed = false then .next (raise .notKeyed false s)
  else
    let t := ksBlock ctr s
    .next (respond (.ok t.ks.toList) t)

/-- ENC (R172): chunk i uses counter IC + i. -/
def execEnc (data : List Byte) (s : State) : Host.Outcome State Fault Refusal :=
  if s.keyed = false then .next (raise .notKeyed false s)
  else if ovfCheck s.ic.toNat data.length then .next (raise .counterOverflow false s)
  else
    let p := streamXor s.ic data s
    .next (respond (.ok p.2) p.1)

/-- ENCC (R173): chunk i uses counter ctr + i. -/
def execEncc (ctr : Word) (data : List Byte) (s : State) : Host.Outcome State Fault Refusal :=
  if s.keyed = false then .next (raise .notKeyed false s)
  else if ovfCheck ctr.toNat data.length then .next (raise .counterOverflow false s)
  else
    let p := streamXor ctr data s
    .next (respond (.ok p.2) p.1)

/-- ENCS (R174): chunk i uses the cursor CTR, which advances by one per block. -/
def execEncs (data : List Byte) (s : State) : Host.Outcome State Fault Refusal :=
  if s.keyed = false then .next (raise .notKeyed false s)
  else if ovfCheck s.ctr.toNat data.length then .next (raise .counterOverflow false s)
  else
    let p := cursorXor data s
    .next (respond (.ok p.2) p.1)

/-- NEXT (R175): one block of the cursor's counter, and the cursor advances. -/
def execNext (s : State) : Host.Outcome State Fault Refusal :=
  if s.keyed = false then .next (raise .notKeyed false s)
  else if ctrExhausted s then .next (raise .counterOverflow false s)
  else
    let t := ksBlock (ctrLow s) s
    .next (respond (.ok t.ks.toList) (advanceCursor t))

end Sys2Proof.Machine
end

