-- ==== Sys2Proof/Machine/QuarterRounds.lean ====
section
/-! DEFINITION. The meanings of the eight table entries (R115 to R122): each applies the quarter-round to the four words
of X its index group names. Each is total and changes nothing but X; which entry runs when, and that a lane is then
marked finished, is the sequencer's part (R141) and stands in Machine/Fetch.lean. -/

namespace Sys2Proof.Machine

/-- QC0: X[0], X[4], X[8], X[12] (R115). -/
def execQc0 (s : State) : Host.Outcome State Fault Refusal := .next (applyEntry 0 s)

/-- QC1: X[1], X[5], X[9], X[13] (R116). -/
def execQc1 (s : State) : Host.Outcome State Fault Refusal := .next (applyEntry 1 s)

/-- QC2: X[2], X[6], X[10], X[14] (R117). -/
def execQc2 (s : State) : Host.Outcome State Fault Refusal := .next (applyEntry 2 s)

/-- QC3: X[3], X[7], X[11], X[15] (R118). -/
def execQc3 (s : State) : Host.Outcome State Fault Refusal := .next (applyEntry 3 s)

/-- QD0: X[0], X[5], X[10], X[15] (R119). -/
def execQd0 (s : State) : Host.Outcome State Fault Refusal := .next (applyEntry 4 s)

/-- QD1: X[1], X[6], X[11], X[12] (R120). -/
def execQd1 (s : State) : Host.Outcome State Fault Refusal := .next (applyEntry 5 s)

/-- QD2: X[2], X[7], X[8], X[13] (R121). -/
def execQd2 (s : State) : Host.Outcome State Fault Refusal := .next (applyEntry 6 s)

/-- QD3: X[3], X[4], X[9], X[14] (R122). -/
def execQd3 (s : State) : Host.Outcome State Fault Refusal := .next (applyEntry 7 s)

end Sys2Proof.Machine
end

