-- ==== Sys2Proof/Machine/Dispatch.lean ====
section
/-! DEFINITION. The dispatch: one arm per instruction. -/

namespace Sys2Proof.Machine

def exec (i : Instr) (s : State) : Host.Outcome State Fault Refusal :=
  match i with
  -- the six commands
  | .init ctr key nonce => Sys2Proof.Machine.execInit ctr key nonce s
  | .ksb ctr => Sys2Proof.Machine.execKsb ctr s
  | .enc data => Sys2Proof.Machine.execEnc data s
  | .encc ctr data => Sys2Proof.Machine.execEncc ctr data s
  | .encs data => Sys2Proof.Machine.execEncs data s
  | .next => Sys2Proof.Machine.execNext s
  -- the eight table entries
  | .qc0 => Sys2Proof.Machine.execQc0 s
  | .qc1 => Sys2Proof.Machine.execQc1 s
  | .qc2 => Sys2Proof.Machine.execQc2 s
  | .qc3 => Sys2Proof.Machine.execQc3 s
  | .qd0 => Sys2Proof.Machine.execQd0 s
  | .qd1 => Sys2Proof.Machine.execQd1 s
  | .qd2 => Sys2Proof.Machine.execQd2 s
  | .qd3 => Sys2Proof.Machine.execQd3 s

end Sys2Proof.Machine
end

