-- ==== Sys2Proof/Machine/Fetch.lean ====
section
/-! DEFINITION. What the core does next: where its next instruction stands, the steps of the engine that run no
instruction, and the answer to a frame that decodes to none. `step` only puts these together. -/

namespace Sys2Proof.Machine

/-- What the core does next. -/
inductive Fetched where
  /-- Idle, and no frame on the command channel: the core waits and holds its registers (R221, R246). -/
  | nothing
  /-- Idle, and this frame at the head of the command channel (R236). -/
  | command (f : Frame)
  /-- Inside a phase: this lane runs, with this word of QRTAB (R141). -/
  | lane (l : Fin 4) (word : BitVec 16)
  /-- Inside a block, and no lane to run: this step of the engine (R142 to R145). -/
  | engine (a : EngineAct)
  deriving DecidableEq, Repr

/-- Inside a phase, the next lane that has not finished, or the barrier. -/
def fetchPhase (ph : Phase) (done : Lanes) : Fetched :=
  match nextLane done with
  | some l => .lane l qrtab[tableIndex ph l]
  | none => .engine .barrier

/-- A frame is taken only when the engine is idle (R58, R236). -/
def fetch (s : State) : Fetched :=
  match s.eseq with
  | .idle =>
    match s.cmdIn with
    | [] => .nothing
    | f :: _ => .command f
  | .round _ ph done => fetchPhase ph done
  | .final => .engine .fadd
  | .serial => .engine .ser
  | .done => .engine .take

/-- What a lane step adds to its micro-operation: the lane is marked finished (R141). -/
def finishLane (l : Fin 4) : Host.Outcome State Fault Refusal → Host.Outcome State Fault Refusal
  | .next s => .next (markLane l s)
  | .fault r => .fault r
  | .refused r => .refused r

/-- The lanes before `l` in the lane order have finished. -/
def lanesBefore (l : Fin 4) : Lanes :=
  (Config.laneOrder.takeWhile (fun k => decide (k ≠ l))).foldl (fun (done : Lanes) (k : Fin 4) => done.set k true) noLanes

/-- Phase and lane of the entry a 16-bit word is, if it is one (R89). -/
def entryLane (w : BitVec 16) : Option (Phase × Fin 4) :=
  if w = qrtab[0] then some (.col, 0)
  else if w = qrtab[1] then some (.col, 1)
  else if w = qrtab[2] then some (.col, 2)
  else if w = qrtab[3] then some (.col, 3)
  else if w = qrtab[4] then some (.diag, 0)
  else if w = qrtab[5] then some (.diag, 1)
  else if w = qrtab[6] then some (.diag, 2)
  else if w = qrtab[7] then some (.diag, 3)
  else none

/-- The state from which the next step runs the entry of this phase and lane: the engine stands in that phase of its
first double-round with the lanes before it finished. -/
def atLane (ph : Phase) (l : Fin 4) (s : State) : State := { s with eseq := .round 0 ph (lanesBefore l) }

/-- The state from which the next step takes this frame: the engine is idle and the frame is next on the command
channel, before those already there. -/
def atFrame (f : Frame) (s : State) : State := { s with eseq := .idle, cmdIn := f :: s.cmdIn }

/-- Places an opcode-table word where `step` fetches from. -/
def placeWord (s : State) (nbits w : Nat) : State :=
  if nbits = 16 then
    match entryLane (BitVec.ofNat 16 w) with
    | some (ph, l) => atLane ph l s
    | none => atFrame (tableFrame nbits w) s
  else atFrame (tableFrame nbits w) s

end Sys2Proof.Machine
end

