-- ==== Sys2Proof/Machine/Step.lean ====
section
/-! DEFINITION. One step of the core. Idle, it takes the next command frame and answers it whole (R12, R58, R60);
inside a block, it takes the engine's next step (R140 to R145). -/

namespace Sys2Proof.Machine

/-- A frame is decoded; a command is executed, and a frame that decodes to none is refused (R165, R209). -/
def stepFrame (f : Frame) (s : State) : Host.Outcome State Fault Refusal :=
  match decodeFrame f with
  | .instr i => exec i s
  | .illegalCommand => .next (raise .illegalCommand (isInitFrame f) s)
  | .badFrame => .next (raise .badFrame (isInitFrame f) s)

/-- A lane reads its word of QRTAB, runs the micro-operation it names and is marked finished (R141). -/
def stepLane (l : Fin 4) (word : BitVec 16) (s : State) : Host.Outcome State Fault Refusal :=
  match decodeEntry word with
  | some i => finishLane l (exec i s)
  | none => .fault .notATableEntry

/-- One step of the core. -/
def step (s : State) : Host.Outcome State Fault Refusal :=
  match fetch s with
  | .nothing => .next s
  | .command f => stepFrame f (takeFrame s)
  | .lane l word => stepLane l word s
  | .engine a => .next (engineDo a s)

/-- The state with an opcode-table word placed where `step` fetches its next instruction: a command as the next frame of
the command channel of an idle core, an entry of QRTAB as the lane the engine serves next (assumption log 7). -/
def State.withFetchWord (s : State) (nbits w : Nat) : State := placeWord s nbits w

end Sys2Proof.Machine
end

