-- ==== Sys2Proof/Safety.lean ====
section
/-! DEFINITION. What counts as a safe run, in the terms the statements use: the invariant of the counters (R28, R42),
well-formed responses (R77), which error a frame gets (R208), what a host can learn (R14, R35, R38, R43), and what an
observer of control flow can learn (R249). These predicates are written from the rules, not from the meanings. -/

namespace Sys2Proof.Safety

open Sys2Proof.Machine

/-! ### Counters -/

/-- CTR is at most 2^32, and while the core is keyed it has not fallen below IC (R28, R42). -/
def CountersInRange (s : State) : Prop := s.ctr.toNat ≤ 2 ^ 32 ∧ (s.keyed = true → s.ic.toNat ≤ s.ctr.toNat)

/-! ### Responses -/

/-- A frame of format R (R77): a status byte 0x00 to 0x06, the payload's length in eight bytes, the payload; with an error
status, exactly nine bytes. -/
def ResponseWellFormed (r : Frame) : Prop :=
  9 ≤ r.length ∧ (byteAt r 0).toNat ≤ 6 ∧ r.length = 9 + fieldLen64 r 1 ∧ (byteAt r 0 ≠ 0 → r.length = 9)

/-- Every frame on the response channel is well formed. -/
def ResponsesWellFormed (s : State) : Prop := ∀ r ∈ s.rspOut, ResponseWellFormed r

/-- The response frame of a success: STATUS 0x00, RLEN64, the payload (R77, R88). -/
def okFrame (payload : List Byte) : Frame := 0x00 :: (natBytes 8 payload.length ++ payload)

/-- The response frame of an error: the status byte and eight zero bytes (R77, R209, R211). -/
def errorFrame (status : Byte) : Frame := [status, 0, 0, 0, 0, 0, 0, 0, 0]

/-- The response was OK with this payload: it is the one frame that was added to the response channel. -/
def AnswersOk (s t : State) (payload : List Byte) : Prop := t.rspOut = s.rspOut ++ [okFrame payload]

/-- The command was refused with this status and nothing else happened: one nine-byte frame is added, and every register
is as it was (R209, R210). -/
def refusedWith (status : Byte) (s : State) : State :=
  { s with eseq := .idle, rspOut := s.rspOut ++ [errorFrame status] }

/-! ### What the commands put out and leave alone -/

/-- `out` is `data` combined byte by byte with the keystream that starts with the block of counter `base`: byte p meets
byte p mod 64 of the block of counter base + p div 64 (R57, R162, R164). -/
def CombinedFrom (key : Vector Word 8) (nonce : Vector Word 3) (base : Nat) (data out : List Byte) : Prop :=
  out.length = data.length ∧
    ∀ p, p < data.length →
      out.getD p 0 = data.getD p 0 ^^^ (keystreamBlock key nonce (BitVec.ofNat 32 (base + p / 64))).getD (p % 64) 0

/-- The registers that no command but INIT writes, KEYED, and the command channel are as they were (R23, R25, R27, R29,
R39). -/
def KeepsInstance (s t : State) : Prop :=
  t.key = s.key ∧ t.nonce = s.nonce ∧ t.ic = s.ic ∧ t.keyed = s.keyed ∧ t.cmdIn = s.cmdIn

/-- The engine's and the driver's working registers are as they were (R30 to R34). -/
def KeepsWorking (s t : State) : Prop :=
  t.x = s.x ∧ t.z = s.z ∧ t.ks = s.ks ∧ t.eseq = s.eseq ∧ t.base = s.base ∧ t.nblk = s.nblk ∧ t.bi = s.bi

/-- S[12] after a data command: the counter of the last block, or as it was if there was no block (R43). -/
def counterWordAfter (s : State) (base len : Nat) : Word :=
  if len = 0 then s.bc else BitVec.ofNat 32 (base + (len + 63) / 64 - 1)

/-- The micro-operation completes: it writes the quarter-round of X[a], X[b], X[c], X[d] to those four words and
changes nothing else of the state (R113). -/
def AppliesQuarterRound (i : Instr) (a b c d : Fin 16) : Prop :=
  ∀ s : State, ∃ t, exec i s = .next t ∧ t = { s with x := t.x } ∧
    Quad.mk t.x[a] t.x[b] t.x[c] t.x[d] = qr ⟨s.x[a], s.x[b], s.x[c], s.x[d]⟩ ∧
    ∀ k : Fin 16, k ≠ a → k ≠ b → k ≠ c → k ≠ d → t.x[k] = s.x[k]

/-! ### Which error a frame gets -/

/-- The frame has the length that the format of its opcode and its header give (R72 to R76, R84). -/
def legalLength (f : Frame) : Bool :=
  decide (headerLength (byteAt f 0) ≤ f.length) && decide (f.length = headerLength (byteAt f 0) + declaredPayload f)

/-- The payload length of a data command's frame (R75, R76). -/
def dataLength (f : Frame) : Nat := f.length - headerLength (byteAt f 0)

/-- The counter range test of R203, for each opcode that makes one. -/
def counterPastRange (s : State) (f : Frame) : Bool :=
  if byteAt f 0 = 0x03 then decide (0 < dataLength f) && decide (2 ^ 32 < s.ic.toNat + (dataLength f + 63) / 64)
  else if byteAt f 0 = 0x04 then
    decide (0 < dataLength f) && decide (2 ^ 32 < (fieldCtr32 f).toNat + (dataLength f + 63) / 64)
  else if byteAt f 0 = 0x05 then
    decide (0 < dataLength f) && decide (2 ^ 32 < s.ctr.toNat + (dataLength f + 63) / 64)
  else if byteAt f 0 = 0x06 then decide (2 ^ 32 ≤ s.ctr.toNat)
  else false

/-- The first error that applies to a frame, in the order of R208's table. -/
def firstError (s : State) (f : Frame) : Option ErrorCode :=
  if f.length = 0 then some .badFrame
  else if byteAt f 0 = 0x00 ∨ 0x07 ≤ (byteAt f 0).toNat then some .illegalCommand
  else if legalLength f = false then some .badFrame
  else if byteAt f 0 ≠ 0x01 ∧ s.keyed = false then some .notKeyed
  else if byteAt f 0 = 0x01 ∧ fieldKlen f ≠ 32 then some .invalidKeyLength
  else if byteAt f 0 = 0x01 ∧ fieldNlen f ≠ 12 then some .invalidNonceLength
  else if counterPastRange s f then some .counterOverflow
  else none

/-- The status byte of an answer: 0x00 for OK, else the error's (R87). -/
def statusByte : Option ErrorCode → Byte
  | none => 0x00
  | some .invalidKeyLength => 0x01
  | some .invalidNonceLength => 0x02
  | some .counterOverflow => 0x03
  | some .notKeyed => 0x04
  | some .illegalCommand => 0x05
  | some .badFrame => 0x06

/-! ### What a host can learn -/

/-- The registers that a later command's result can depend on while the core is keyed (R20 "architectural", without the
dead S[12] of R43). -/
structure Instance where
  key : Vector Word 8
  nonce : Vector Word 3
  ic : Word
  ctr : BitVec 33
  deriving DecidableEq, Repr

/-- The architectural registers of a state. -/
def instanceOf (s : State) : Instance := ⟨s.key, s.nonce, s.ic, s.ctr⟩

/-- Two idle states a host cannot tell apart: the same frames waiting, the same responses, the same KEYED, and the same
architectural registers if KEYED = 1. S[12], X, Z, KS, BASE, NBLK, BI, and all of S, IC and CTR while KEYED = 0, may
differ (R35, R38, R43). -/
def SameToHost (s t : State) : Prop :=
  s.eseq = .idle ∧ t.eseq = .idle ∧ s.cmdIn = t.cmdIn ∧ s.rspOut = t.rspOut ∧ s.keyed = t.keyed ∧
    (s.keyed = true → instanceOf s = instanceOf t)

/-! ### What an observer of control flow can learn -/

/-- Two instructions that differ at most in key bytes, nonce bytes and data bytes (R249: the secret inputs). -/
def SamePublicPart : Instr → Instr → Prop
  | .init c k n, .init c' k' n' => c = c' ∧ k.length = k'.length ∧ n.length = n'.length
  | .enc d, .enc d' => d.length = d'.length
  | .encc c d, .encc c' d' => c = c' ∧ d.length = d'.length
  | .encs d, .encs d' => d.length = d'.length
  | i, j => i = j

/-- Two states that agree on what steers control: KEYED, IC, CTR, ESEQ, BASE, NBLK and BI (R245, R249). -/
def SameControl (s t : State) : Prop :=
  s.keyed = t.keyed ∧ s.ic = t.ic ∧ s.ctr = t.ctr ∧ s.eseq = t.eseq ∧ s.base = t.base ∧ s.nblk = t.nblk ∧ s.bi = t.bi

/-- Two response frames of one shape: the same length and the same nine header bytes. -/
def SameShape (r r' : Frame) : Prop := r.length = r'.length ∧ r.take 9 = r'.take 9

/-- Both runs emit nothing, or both emit one response frame of one shape. -/
def SameEmission (s s' t t' : State) : Prop :=
  (s'.rspOut = s.rspOut ∧ t'.rspOut = t.rspOut) ∨
    ∃ r r', s'.rspOut = s.rspOut ++ [r] ∧ t'.rspOut = t.rspOut ++ [r'] ∧ SameShape r r'

/-! ### The lifetime of an instance -/

/-- The frame the next step takes, if it takes one. -/
def nextFrame (s : State) : Option Frame :=
  match s.eseq with
  | .idle => s.cmdIn.head?
  | .round _ _ _ => none
  | .final => none
  | .serial => none
  | .done => none

/-- The next step takes a frame whose opcode byte is 0x01 (R41). -/
def takesInit (s : State) : Bool :=
  match nextFrame s with
  | some f => isInitFrame f
  | none => false

end Sys2Proof.Safety
end

