-- ==== Sys2Proof/Certificates/Slice0/Obligations.lean ====
section
/-! DEFINITION. The statements for the provers. Each docstring names the rules of spec/ it formalises. -/

open Sys2Proof Sys2Proof.Machine Sys2Proof.Safety

/-! ### Encoding -/

/-- Words written out from the encodings decode to the instructions they stand for (R72 to R76, R82, R89; the frames are
the worked encodings of R93). A sanity statement. -/
def Obligations.WrittenOutWordsDecode : Prop :=
  decodeFrame [0x06] = .instr .next ∧
  decodeFrame [0x02, 0x01, 0x00, 0x00, 0x00] = .instr (.ksb 1) ∧
  decodeFrame [0x03, 0x05, 0, 0, 0, 0, 0, 0, 0, 0x68, 0x65, 0x6c, 0x6c, 0x6f]
    = .instr (.enc [0x68, 0x65, 0x6c, 0x6c, 0x6f]) ∧
  decodeFrame [0x04, 0xff, 0xff, 0xff, 0xff, 0x01, 0, 0, 0, 0, 0, 0, 0, 0x00] = .instr (.encc 0xFFFFFFFF [0x00]) ∧
  decodeFrame [0x05, 0x01, 0, 0, 0, 0, 0, 0, 0, 0xaa] = .instr (.encs [0xaa]) ∧
  decodeFrame [0x01, 0x01, 0x00, 0x00, 0x00, 0x02, 0x01, 0x10, 0x11, 0x20] = .instr (.init 1 [0x10, 0x11] [0x20]) ∧
  decodeEntry 0x048C = some .qc0 ∧ decodeEntry 0x159D = some .qc1 ∧ decodeEntry 0x26AE = some .qc2 ∧
  decodeEntry 0x37BF = some .qc3 ∧ decodeEntry 0x05AF = some .qd0 ∧ decodeEntry 0x16BC = some .qd1 ∧
  decodeEntry 0x278D = some .qd2 ∧ decodeEntry 0x349E = some .qd3

/-- Decoding the encoding of a well-formed instruction gives the instruction, for all fourteen and every operand (R72 to
R76, R79 to R82, R86, R89). -/
def Obligations.DecodeOfEncodeIsTheInstruction : Prop :=
  ∀ i : Instr, i.wf = true → decode (encode i) = some i

/-- Each word has one meaning: what decodes to an instruction is the encoding of that instruction, which is well formed
(R84 "trailing bytes are never ignored", R86, R89). -/
def Obligations.EncodeOfDecodeIsTheWords : Prop :=
  ∀ (c : Code) (i : Instr), decode c = some i → i.wf = true ∧ encode i = c

/-- Which frames the decoder rejects, and with which name: a reserved opcode byte (R83), an empty frame or a length that
is not the format's (R84). -/
def Obligations.ReservedAndMalformedFramesAreRejected : Prop :=
  (∀ f : Frame, decodeFrame f = .illegalCommand ↔
    f ≠ [] ∧ (byteAt f 0 = 0x00 ∨ 0x07 ≤ (byteAt f 0).toNat)) ∧
  (∀ f : Frame, decodeFrame f = .badFrame ↔
    f = [] ∨ (1 ≤ (byteAt f 0).toNat ∧ (byteAt f 0).toNat ≤ 6 ∧ legalLength f = false))

/-! ### The step -/

/-- When the core is idle and the frame at the head of the command channel decodes to an instruction, the step is that
instruction's meaning on the state with the frame taken (R60, R165, R236). -/
def Obligations.StepExecutesTheFrameAtTheHead : Prop :=
  ∀ (s : State) (f : Frame) (rest : List Frame) (i : Instr),
    s.eseq = .idle → s.cmdIn = f :: rest → decodeFrame f = .instr i →
      step s = exec i { s with cmdIn := rest }

/-- Inside a phase the step is E-LANE of the lowest lane that has not finished: the instruction that entry 4·ph + l of
QRTAB decodes to is executed, and the lane is then marked finished (R141). That the lowest lane goes first is the model's
choice (assumption log 1). -/
def Obligations.LaneStepRunsTheTableEntry : Prop :=
  ∀ (s : State) (dr : Fin 10) (ph : Phase) (done : Lanes) (l : Fin 4),
    s.eseq = .round dr ph done → done[l] = false → (∀ k : Fin 4, k < l → done[k] = true) →
      ∃ i t, decodeEntry (qrtab[tableIndex ph l]) = some i ∧ exec i s = .next t ∧
        step s = .next { t with eseq := .round dr ph (done.set l true) }

/-- The other steps of the engine: the barrier (R142), the finalisation (R143), the serialisation (R144) and the taking
of the block (R145), each with all it changes. That the step at DONE changes ESEQ alone, so that a block found there goes to
no command, is the model's reading (assumption log 3); R145 has the driver take it for the chunk or the response. -/
def Obligations.SequencerStepsInOrder : Prop :=
  (∀ (s : State) (dr : Fin 10), s.eseq = .round dr .col allLanes →
    step s = .next { s with eseq := .round dr .diag noLanes }) ∧
  (∀ (s : State) (dr dr' : Fin 10), s.eseq = .round dr .diag allLanes → dr'.val = dr.val + 1 →
    step s = .next { s with eseq := .round dr' .col noLanes }) ∧
  (∀ s : State, s.eseq = .round 9 .diag allLanes → step s = .next { s with eseq := .final }) ∧
  (∀ s : State, s.eseq = .final → ∃ t, step s = .next t ∧ t = { s with z := t.z, eseq := .serial } ∧
    ∀ i : Fin 16, (t.z[i]).toNat = ((s.x[i]).toNat + ((sWords s)[i]).toNat) % 2 ^ 32) ∧
  (∀ s : State, s.eseq = .serial → ∃ t, step s = .next t ∧ t = { s with ks := t.ks, eseq := .done } ∧
    t.ks.toList = s.z.toList.flatMap bytes32) ∧
  (∀ s : State, s.eseq = .done → step s = .next { s with eseq := .idle })

/-- Idle with no frame to take, the core holds every register (R221, R246). That waiting is a step that changes nothing
is the model's reading (assumption log 5). -/
def Obligations.IdleCoreWaits : Prop :=
  ∀ s : State, s.eseq = .idle → s.cmdIn = [] → step s = .next s

/-- A step never stops: from every state there is a next state (R215 "no third one: the core never hangs, never refuses
to answer"). -/
def Obligations.EveryStepHasANextState : Prop := ∀ s : State, ∃ t, step s = .next t

/-- Every frame gets exactly one response, in the order of the frames: the waiting frames of an idle core have a list of
responses, one each, such that after any number k of steps up to their number the core is idle, exactly the first k frames
have left the command channel, and exactly the first k responses have been added to the response channel (R60, R215). -/
def Obligations.EveryFrameGetsOneResponse : Prop :=
  ∀ s : State, s.eseq = .idle →
    ∃ rs : List Frame, rs.length = s.cmdIn.length ∧
      ∀ k, k ≤ s.cmdIn.length →
        ∃ t, core.run k s = .next t ∧ t.eseq = .idle ∧ t.cmdIn = s.cmdIn.drop k ∧ t.rspOut = s.rspOut ++ rs.take k

/-! ### The engine -/

/-- Every sequence of engine steps that the rules allow from IDLE with a given S, whatever the order of the lanes: it is
never stuck before it is idle again; when it is, it has taken 1 E-START, 80 E-LANE, 20 E-BARRIER, 1 E-FADD, 1 E-SER and
1 E-TAKE, and KS holds KSBYTES(S); and it changes nothing but X, Z, KS and ESEQ (R147, R148). -/
def Obligations.EveryScheduleDeliversTheKeystream : Prop :=
  ∀ (s : State) (acts : List EngineAct),
    s.eseq = .idle → (∀ a ∈ acts, a ≠ .start) → allowed (.start :: acts) s →
      let t := engineRun (.start :: acts) s
      acts.length ≤ 103 ∧
      t = { s with x := t.x, z := t.z, ks := t.ks, eseq := t.eseq } ∧
      (t.eseq ≠ .idle → ∃ a : EngineAct, a ≠ .start ∧ a.enabled t.eseq = true) ∧
      (t.eseq = .idle →
        t.ks = ksBytes (sWords s) ∧
        acts.countP (fun a => match a with | .lane _ => true | _ => false) = 80 ∧
        acts.count .barrier = 20 ∧ acts.count .fadd = 1 ∧ acts.count .ser = 1 ∧ acts.count .take = 1)

/-- The machine's own steps finish a block: from the state E-START leaves, 103 steps leave PERM, BLOCK and KSBYTES of
the state register in X, Z and KS, and the engine idle (R140 to R145, R148). That the 103rd step gives the block to no
command and answers nothing is the model's reading (assumption log 3), and that X and Z still hold PERM and BLOCK then is
the model's choice (assumption log 4; R35 leaves them unspecified). -/
def Obligations.MachineStepsFinishTheBlock : Prop :=
  ∀ s : State,
    core.run 103 { s with x := sWords s, eseq := .round 0 .col noLanes } = .next { s with
      x := perm (sWords s)
      z := block (sWords s)
      ks := ksBytes (sWords s)
      eseq := .idle }

/-- QC0 to QC3 complete in every state: each applies the quarter-round to its column of X and leaves the twelve other
words and every other register (R113, R115, R116, R117, R118). -/
def Obligations.ColumnEntriesApplyTheQuarterRound : Prop :=
  AppliesQuarterRound .qc0 0 4 8 12 ∧ AppliesQuarterRound .qc1 1 5 9 13 ∧
  AppliesQuarterRound .qc2 2 6 10 14 ∧ AppliesQuarterRound .qc3 3 7 11 15

/-- QD0 to QD3 complete in every state: each applies the quarter-round to its diagonal of X and leaves the twelve other
words and every other register (R113, R119, R120, R121, R122). -/
def Obligations.DiagonalEntriesApplyTheQuarterRound : Prop :=
  AppliesQuarterRound .qd0 0 5 10 15 ∧ AppliesQuarterRound .qd1 1 6 11 12 ∧
  AppliesQuarterRound .qd2 2 7 8 13 ∧ AppliesQuarterRound .qd3 3 4 9 14

/-- The four applications of a phase are independent: the indices of a phase are 0..15, each once; any two of its
applications commute; in any order, and all at once, they give the round; an application of the other phase shares one
index, and the two do not commute; and the k-th index of a group is in row k (R114). -/
def Obligations.ApplicationsOfAPhaseCommute : Prop :=
  (∀ ph : Phase, ([0, 1, 2, 3].flatMap fun l : Fin 4 =>
    let g := group (tableIndex ph l); [g.a, g.b, g.c, g.d]).Perm (List.finRange 16)) ∧
  (∀ (ph : Phase) (k l : Fin 4) (x : Block), k ≠ l →
    qrApply (qrApply x (tableIndex ph k)) (tableIndex ph l) = qrApply (qrApply x (tableIndex ph l)) (tableIndex ph k)) ∧
  (∀ (ls : List (Fin 4)) (x : Block), ls.Perm [0, 1, 2, 3] →
    ls.foldl (fun y l => qrApply y (tableIndex .col l)) x = colRound x ∧
    ls.foldl (fun y l => qrApply y (tableIndex .diag l)) x = diagRound x) ∧
  (∀ (l : Fin 4) (x : Block),
    readGroup (colRound x) (group (tableIndex .col l)) = qr (readGroup x (group (tableIndex .col l))) ∧
    readGroup (diagRound x) (group (tableIndex .diag l)) = qr (readGroup x (group (tableIndex .diag l)))) ∧
  (∀ k l : Fin 4,
    (let g := group (tableIndex .col k); let h := group (tableIndex .diag l)
     ([g.a, g.b, g.c, g.d].filter fun i => decide (i ∈ [h.a, h.b, h.c, h.d])).length = 1) ∧
    ∃ x : Block, qrApply (qrApply x (tableIndex .col k)) (tableIndex .diag l)
      ≠ qrApply (qrApply x (tableIndex .diag l)) (tableIndex .col k)) ∧
  (∀ t : Fin 8, (group t).a.val / 4 = 0 ∧ (group t).b.val / 4 = 1 ∧ (group t).c.val / 4 = 2 ∧ (group t).d.val / 4 = 3)

/-- The quarter-round is a bijection on its four words, with QRINV its inverse on both sides (R112, and its example). -/
def Obligations.QuarterRoundIsABijection : Prop :=
  (∀ q : Quad, qrInv (qr q) = q) ∧ (∀ q : Quad, qr (qrInv q) = q) ∧
  qrInv ⟨0xea2a92f4, 0xcb1cf8ce, 0x4581472e, 0x5881c4bb⟩ = ⟨0x11111111, 0x01020304, 0x9b8d6f43, 0x01234567⟩

/-- PERM is a bijection on sixteen-word states: QRINV through the entries 7 to 0, ten times, undoes it, on both sides
(R151). -/
def Obligations.PermutationIsABijection : Prop :=
  (∀ x : Block, permInv (perm x) = x) ∧ (∀ x : Block, perm (permInv x) = x)

/-- ADD32 is addition modulo 2^32, commutative and associative, and SUB32 undoes it (R101, R105); XOR32 differs bit by
bit and undoes itself (R102). -/
def Obligations.AdditionWrapsAndXorCancels : Prop :=
  (∀ x y : Word, (add32 x y).toNat = (x.toNat + y.toNat) % 2 ^ 32) ∧
  (∀ x y z : Word, add32 x y = add32 y x ∧ add32 (add32 x y) z = add32 x (add32 y z)) ∧
  (∀ x y : Word, sub32 (add32 x y) y = x ∧ add32 (sub32 x y) y = x) ∧
  (∀ (x y : Word) (i : Nat), (xor32 x y).getLsbD i = (x.getLsbD i != y.getLsbD i)) ∧
  (∀ x y : Word, xor32 (xor32 x y) y = x)

/-- ROTL32 by 1 to 31 moves bit i to bit (i + n) mod 32, is the shift-and-or of the rule, loses no bit, and ROTR32
undoes it; by 16 it swaps the halves (R103, R104). -/
def Obligations.RotationMovesEveryBit : Prop :=
  ∀ (x : Word) (n : Nat), 1 ≤ n → n ≤ 31 →
    (rotl32 x n).toNat = ((x.toNat * 2 ^ n) ||| (x.toNat / 2 ^ (32 - n))) % 2 ^ 32 ∧
    (∀ i, i < 32 → (rotl32 x n).getLsbD ((i + n) % 32) = x.getLsbD i) ∧
    (List.range 32).countP (fun i => (rotl32 x n).getLsbD i) = (List.range 32).countP (fun i => x.getLsbD i) ∧
    rotr32 (rotl32 x n) n = x ∧ rotl32 (rotr32 x n) n = x ∧
    (n = 16 → (rotl32 x n).toNat = x.toNat % 2 ^ 16 * 2 ^ 16 + x.toNat / 2 ^ 16)

/-- LE32 and BYTES32: the first byte is the least significant, and each undoes the other (R51). -/
def Obligations.WordsAndBytesAreLittleEndian : Prop :=
  (∀ b0 b1 b2 b3 : Byte,
    (le32 b0 b1 b2 b3).toNat = b0.toNat + 2 ^ 8 * b1.toNat + 2 ^ 16 * b2.toNat + 2 ^ 24 * b3.toNat ∧
    bytes32 (le32 b0 b1 b2 b3) = [b0, b1, b2, b3]) ∧
  (∀ w : Word, bytes32 w = [w.extractLsb' 0 8, w.extractLsb' 8 8, w.extractLsb' 16 8, w.extractLsb' 24 8] ∧
    ∀ b0 b1 b2 b3, bytes32 w = [b0, b1, b2, b3] → le32 b0 b1 b2 b3 = w) ∧
  le32 0x00 0x01 0x02 0x03 = 0x03020100 ∧ bytes32 0xe4e7f110 = [0x10, 0xf1, 0xe7, 0xe4]

/-- S[0..3] are the bytes of `expand 32-byte k` packed with LE32, in every state, and words 4 to 15 of the register are
the key, the counter and the nonce words (R21, R22, R26, R40). -/
def Obligations.StateRegisterLayout : Prop :=
  ∀ s : State,
    (sWords s)[0] = le32 0x65 0x78 0x70 0x61 ∧ (sWords s)[1] = le32 0x6e 0x64 0x20 0x33 ∧
    (sWords s)[2] = le32 0x32 0x2d 0x62 0x79 ∧ (sWords s)[3] = le32 0x74 0x65 0x20 0x6b ∧
    (∀ j : Fin 8, (sWords s)[4 + j.val] = s.key[j]) ∧ (sWords s)[12] = s.bc ∧
    (∀ j : Fin 3, (sWords s)[13 + j.val] = s.nonce[j])

/-! ### INIT -/

/-- INIT completes with a 32-byte key and a 12-byte nonce: it packs them into the key and nonce words, sets S[12], IC and
CTR to the counter and KEYED to 1, answers OK with an empty payload, and leaves the working registers (R23, R25, R170). -/
def Obligations.InitLoadsTheInstance : Prop :=
  ∀ (ctr : Word) (key nonce : List Byte) (s : State), key.length = 32 → nonce.length = 12 →
    ∃ t, exec (.init ctr key nonce) s = .next t ∧ t.keyed = true ∧
      (∀ j : Fin 8, (t.key[j]).toNat = leNat ((key.drop (4 * j.val)).take 4)) ∧
      (∀ j : Fin 3, (t.nonce[j]).toNat = leNat ((nonce.drop (4 * j.val)).take 4)) ∧
      t.bc = ctr ∧ t.ic = ctr ∧ t.ctr.toNat = ctr.toNat ∧
      AnswersOk s t [] ∧ KeepsWorking s t ∧ t.cmdIn = s.cmdIn

/-- INIT with a key of another length than 32 bytes answers InvalidKeyLength, whatever the nonce; with a 32-byte key and
a nonce of another length than 12 bytes, InvalidNonceLength; either leaves KEYED = 0 and every other register as it
was (R201, R202, R210). -/
def Obligations.FailedInitLeavesTheCoreUnkeyed : Prop :=
  ∀ (ctr : Word) (key nonce : List Byte) (s : State),
    (key.length ≠ 32 → exec (.init ctr key nonce) s = .next { refusedWith 0x01 s with keyed := false }) ∧
    (key.length = 32 → nonce.length ≠ 12 →
      exec (.init ctr key nonce) s = .next { refusedWith 0x02 s with keyed := false })

/-! ### The data commands -/

/-- While KEYED = 0, every command but INIT is refused with NotKeyed and changes nothing (R204, R210). -/
def Obligations.UnkeyedCoreRefuses : Prop :=
  ∀ s : State, s.keyed = false →
    (∀ c, exec (.ksb c) s = .next (refusedWith 0x04 s)) ∧
    (∀ d, exec (.enc d) s = .next (refusedWith 0x04 s)) ∧
    (∀ c d, exec (.encc c d) s = .next (refusedWith 0x04 s)) ∧
    (∀ d, exec (.encs d) s = .next (refusedWith 0x04 s)) ∧
    exec .next s = .next (refusedWith 0x04 s)

/-- KSB completes on every keyed core, for every counter: it answers OK with the 64 keystream bytes of its operand, a
function of key, nonce and operand; it reads and writes neither IC nor CTR (R160, R171, R177). -/
def Obligations.KsbReturnsTheBlock : Prop :=
  ∀ (c : Word) (s : State), s.keyed = true →
    ∃ t, exec (.ksb c) s = .next t ∧ AnswersOk s t (keystreamBlock s.key s.nonce c) ∧
      KeepsInstance s t ∧ t.ctr = s.ctr ∧ t.bc = c ∧ t.eseq = .idle ∧
      t.base = s.base ∧ t.nblk = s.nblk ∧ t.bi = s.bi

/-- ENC completes on a keyed core when no block's counter passes 0xFFFFFFFF: it answers OK with the data combined with the
keystream from counter IC on, and writes neither IC nor CTR; otherwise it answers CounterOverflow and changes
nothing (R164, R172, R203). -/
def Obligations.EncStartsAtTheInitialCounter : Prop :=
  ∀ (data : List Byte) (s : State), s.keyed = true →
    ((data = [] ∨ s.ic.toNat + (data.length + 63) / 64 ≤ 2 ^ 32) →
      ∃ t out, exec (.enc data) s = .next t ∧ AnswersOk s t out ∧ CombinedFrom s.key s.nonce s.ic.toNat data out ∧
        KeepsInstance s t ∧ t.ctr = s.ctr ∧ t.bc = counterWordAfter s s.ic.toNat data.length ∧
        (s.eseq = .idle → t.eseq = .idle)) ∧
    (data ≠ [] → 2 ^ 32 < s.ic.toNat + (data.length + 63) / 64 → exec (.enc data) s = .next (refusedWith 0x03 s))

/-- ENCC is ENC with the counter of its own operand; IC and CTR are neither read nor written (R164, R173, R203). -/
def Obligations.EnccStartsAtItsOperand : Prop :=
  ∀ (ctr : Word) (data : List Byte) (s : State), s.keyed = true →
    ((data = [] ∨ ctr.toNat + (data.length + 63) / 64 ≤ 2 ^ 32) →
      ∃ t out, exec (.encc ctr data) s = .next t ∧ AnswersOk s t out ∧ CombinedFrom s.key s.nonce ctr.toNat data out ∧
        KeepsInstance s t ∧ t.ctr = s.ctr ∧ t.bc = counterWordAfter s ctr.toNat data.length ∧
        (s.eseq = .idle → t.eseq = .idle)) ∧
    (data ≠ [] → 2 ^ 32 < ctr.toNat + (data.length + 63) / 64 → exec (.encc ctr data) s = .next (refusedWith 0x03 s))

/-- ENCS completes on a keyed core when no block's counter passes 0xFFFFFFFF: it answers OK with the data combined with
the keystream from the cursor on, and CTR advances by the number of blocks; otherwise, so with every non-empty data once
EXH = 1, it answers CounterOverflow and changes nothing (R28, R174, R203). -/
def Obligations.EncsAdvancesTheCursor : Prop :=
  ∀ (data : List Byte) (s : State), s.keyed = true →
    ((data = [] ∨ s.ctr.toNat + (data.length + 63) / 64 ≤ 2 ^ 32) →
      ∃ t out, exec (.encs data) s = .next t ∧ AnswersOk s t out ∧ CombinedFrom s.key s.nonce s.ctr.toNat data out ∧
        KeepsInstance s t ∧ t.ctr.toNat = s.ctr.toNat + (data.length + 63) / 64 ∧
        t.bc = counterWordAfter s s.ctr.toNat data.length ∧ (s.eseq = .idle → t.eseq = .idle)) ∧
    (data ≠ [] → 2 ^ 32 < s.ctr.toNat + (data.length + 63) / 64 → exec (.encs data) s = .next (refusedWith 0x03 s))

/-- NEXT completes on a keyed core whose cursor is at most 0xFFFFFFFF: it answers OK with the block of the cursor's
counter, and CTR advances by one; past it, so after the block of counter 0xFFFFFFFF, it answers CounterOverflow and
changes nothing (R28, R175, R203). -/
def Obligations.NextReturnsTheCursorsBlock : Prop :=
  ∀ s : State, s.keyed = true →
    (s.ctr.toNat ≤ 0xFFFFFFFF →
      ∃ t, exec .next s = .next t ∧ AnswersOk s t (keystreamBlock s.key s.nonce (BitVec.ofNat 32 s.ctr.toNat)) ∧
        KeepsInstance s t ∧ t.ctr.toNat = s.ctr.toNat + 1 ∧ t.bc.toNat = s.ctr.toNat ∧ t.eseq = .idle ∧
        t.base = s.base ∧ t.nblk = s.nblk ∧ t.bi = s.bi) ∧
    (0xFFFFFFFF < s.ctr.toNat → exec .next s = .next (refusedWith 0x03 s))

/-- OVFCHECK raises exactly when some block of the command would need a counter above 0xFFFFFFFF; the number of blocks
is the ceiling of len / 64; and the rule's eight examples (R57, R163). -/
def Obligations.OverflowCheckTestsEveryBlock : Prop :=
  (∀ base len : Nat, ovfCheck base len = true ↔ ∃ i, i < numBlocks len ∧ 0xFFFFFFFF < base + i) ∧
  (∀ len n : Nat, numBlocks len ≤ n ↔ len ≤ 64 * n) ∧
  ovfCheck 0xFFFFFFFF 64 = false ∧ ovfCheck 0xFFFFFFFF 65 = true ∧
  ovfCheck 0xFFFFFFFE 128 = false ∧ ovfCheck 0xFFFFFFFE 129 = true ∧
  ovfCheck 0 (2 ^ 38) = false ∧ ovfCheck 0 (2 ^ 38 + 1) = true ∧
  ovfCheck (2 ^ 32) 0 = false ∧ ovfCheck (2 ^ 32) 1 = true

/-- The chunks of a payload are its bytes, each once and in order; every chunk but the last has 64 bytes, the last 1 to
64; and the result of chunk i stands at the chunk's own offsets of the response payload (R57, R161, R162). -/
def Obligations.ChunksCoverThePayload : Prop :=
  ∀ data : List Byte,
    (List.range (numBlocks data.length)).flatMap (chunk data) = data ∧
    (∀ i, i + 1 < numBlocks data.length → (chunk data i).length = 64) ∧
    (∀ i, i + 1 = numBlocks data.length → 1 ≤ (chunk data i).length ∧ (chunk data i).length ≤ 64 ∧
      (chunk data i).length = data.length - 64 * i) ∧
    (∀ key nonce base i, i < numBlocks data.length →
      memRead (xorStream key nonce base data) (64 * i) (chunk data i).length
        = xorChunk (chunk data i) (keystreamBlock key nonce (BitVec.ofNat 32 (base + i))))

/-! ### Properties of the commands -/

/-- Round trip: in one keyed state, and in the state the encryption leaves, what ENC put out is decrypted by DEC, which is
ENC, and what ENCC put out by DECC with the same counter (R176, R178). -/
def Obligations.DecryptionUndoesEncryption : Prop :=
  ∀ (s t : State) (p c : List Byte), s.keyed = true → AnswersOk s t c →
    (exec (.enc p) s = .next t →
      (∃ u, exec (Instr.dec c) s = .next u ∧ AnswersOk s u p) ∧ (∃ u, exec (Instr.dec c) t = .next u ∧ AnswersOk t u p)) ∧
    (∀ ctr, exec (.encc ctr p) s = .next t →
      (∃ u, exec (Instr.decc ctr c) s = .next u ∧ AnswersOk s u p) ∧
      (∃ u, exec (Instr.decc ctr c) t = .next u ∧ AnswersOk t u p))

/-- Zero data is keystream: n zero bytes give the first n bytes of the blocks of counters base, base + 1, …; so ENCC c
with 64 zero bytes answers what KSB c answers, and ENCS with 64 zero bytes answers what NEXT answers and leaves the same
cursor (R179, R92). -/
def Obligations.ZeroDataIsKeystream : Prop :=
  (∀ key nonce base n, xorStream key nonce base (List.replicate n 0)
    = ((List.range (numBlocks n)).flatMap fun i => keystreamBlock key nonce (BitVec.ofNat 32 (base + i))).take n) ∧
  (∀ (s : State) (c : Word), ∃ t u, exec (Instr.kstr c 64) s = .next t ∧ exec (.ksb c) s = .next u ∧
    t.rspOut = u.rspOut) ∧
  (∀ s : State, ∃ t u, exec (.encs (List.replicate 64 0)) s = .next t ∧ exec .next s = .next u ∧
    t.rspOut = u.rspOut ∧ t.ctr = u.ctr)

/-- Splitting at a whole number of blocks: the output of the whole is that of the first part followed by that of the
second with the counter advanced; so ENCS of the whole and ENCS of the parts, one after the other, put out the same
bytes and leave the same cursor (R180). -/
def Obligations.DataSplitsAtWholeBlocks : Prop :=
  (∀ key nonce base m d1 d2, d1.length = 64 * m →
    xorStream key nonce base (d1 ++ d2) = xorStream key nonce base d1 ++ xorStream key nonce (base + m) d2) ∧
  (∀ (s t : State) (m : Nat) (d1 d2 out : List Byte), s.keyed = true → d1.length = 64 * m →
    exec (.encs (d1 ++ d2)) s = .next t → AnswersOk s t out →
      ∃ u v out1 out2, exec (.encs d1) s = .next u ∧ exec (.encs d2) u = .next v ∧
        AnswersOk s u out1 ∧ AnswersOk u v out2 ∧ out = out1 ++ out2 ∧ v.ctr = t.ctr)

/-- The stateless commands are repeatable: KSB, ENC or ENCC sent twice in a row is answered twice by the same frame
(R27, R59). -/
def Obligations.StatelessCommandsRepeat : Prop :=
  ∀ (s : State) (i : Instr), (∃ c, i = .ksb c) ∨ (∃ d, i = .enc d) ∨ (∃ c d, i = .encc c d) →
    ∃ t u r, exec i s = .next t ∧ exec i t = .next u ∧ t.rspOut = s.rspOut ++ [r] ∧ u.rspOut = t.rspOut ++ [r]

/-! ### Errors -/

/-- One error per frame, the first of R208's table: the answer of an idle core to any frame has the status byte of that
error, or 0x00 if none applies (R87, R208). -/
def Obligations.FirstErrorDecidesTheStatus : Prop :=
  ∀ (s : State) (f : Frame) (rest : List Frame), s.eseq = .idle → s.cmdIn = f :: rest →
    ∃ t r, step s = .next t ∧ t.rspOut = s.rspOut ++ [r] ∧ byteAt r 0 = statusByte (firstError s f)

/-- The refusal sequence: when an error applies to a frame, the step takes the frame, emits the error's nine bytes, and
leaves every register as it was, except that KEYED is 0 if byte 0 of the frame is 0x01 (R209, R210, R211). -/
def Obligations.ErrorsChangeNothingButKeyed : Prop :=
  ∀ (s : State) (f : Frame) (rest : List Frame) (e : ErrorCode),
    s.eseq = .idle → s.cmdIn = f :: rest → firstError s f = some e →
      step s = .next { s with
        cmdIn := rest
        keyed := if f ≠ [] ∧ byteAt f 0 = 0x01 then false else s.keyed
        rspOut := s.rspOut ++ [errorFrame (statusByte (some e))] }

/-! ### Invariants and whole-machine rules -/

/-- After reset: KEYED = 0, ESEQ = IDLE, no response on the channel (R37, R231); and both invariants below hold. That no
frame waits in the command channel is the model's choice (assumption log 6), and that CTR is in range already at reset
rests on the zero the model puts there (assumption log 2), since R37 gives CTR no value. -/
def Obligations.ResetMeetsTheInvariants : Prop :=
  State.reset.keyed = false ∧ State.reset.eseq = .idle ∧ State.reset.rspOut = [] ∧ State.reset.cmdIn = [] ∧
  CountersInRange State.reset ∧ ResponsesWellFormed State.reset

/-- Every step keeps CTR at most 2^32 and, while the core is keyed, at least IC (R28, R42). -/
def Obligations.CountersStayInRange : Prop :=
  ∀ s t : State, CountersInRange s → step s = .next t → CountersInRange t

/-- Every step keeps the frames on the response channel well formed: a status byte 0x00 to 0x06, a length field that is
the payload's length, no payload with an error (R77, R85). -/
def Obligations.ResponsesStayWellFormed : Prop :=
  ∀ s t : State, ResponsesWellFormed s → step s = .next t → ResponsesWellFormed t

/-- Only a frame with opcode byte 0x01 changes the key words, the nonce words, IC or KEYED, and no other step makes CTR
smaller (R23, R27, R28, R29, R41). -/
def Obligations.OnlyInitChangesTheInstance : Prop :=
  ∀ s t : State, takesInit s = false → step s = .next t →
    t.key = s.key ∧ t.nonce = s.nonce ∧ t.ic = s.ic ∧ t.keyed = s.keyed ∧ s.ctr.toNat ≤ t.ctr.toNat

/-- While the counters are in range, EXH = 1 exactly when CTR = 2^32, and then CTR[31:0] = 0 (R28). -/
def Obligations.ExhaustedExactlyPastTheLastCounter : Prop :=
  ∀ s : State, CountersInRange s →
    (exh s = true ↔ s.ctr.toNat = 2 ^ 32) ∧ (exh s = true → ctrLow s = 0) ∧
    (exh s = false → (ctrLow s).toNat = s.ctr.toNat)

/-- A host cannot tell apart two idle states that differ in dead registers only (S[12], X, Z, KS, BASE, NBLK, BI; and S, IC,
CTR while KEYED = 0): after any number of steps both have put out the same responses and still cannot be told apart
(R35, R38, R43). -/
def Obligations.DeadRegistersAreInvisible : Prop :=
  ∀ (n : Nat) (s t : State), SameToHost s t →
    ∃ s' t', core.run n s = .next s' ∧ core.run n t = .next t' ∧ SameToHost s' t'

/-- For every sequence of frames after a reset, the sequence of responses is a function of the frames alone, whatever the
registers held before the reset (R38, R231, R250). That frames which waited before the reset have no part in it is the
model's choice: its reset drops them (assumption log 6). -/
def Obligations.ResponsesAfterResetDependOnTheFramesAlone : Prop :=
  ∀ (s t : State) (frames : List Frame),
    ∃ s' t', core.run frames.length (frames.foldl (fun u f => send f u) (applyReset s)) = .next s' ∧
      core.run frames.length (frames.foldl (fun u f => send f u) (applyReset t)) = .next t' ∧
      s'.rspOut = t'.rspOut ∧ s'.rspOut.length = frames.length

/-- Control does not depend on secrets: two executions that differ at most in key, nonce and data bytes and in registers
that do not steer control end with the same KEYED, IC, CTR, ESEQ, BASE, NBLK, BI and with responses of the same status and
length; and so does a step of the engine (R150, R245, R249). -/
def Obligations.ControlDoesNotDependOnSecrets : Prop :=
  (∀ (i j : Instr) (s t : State), SamePublicPart i j → SameControl s t →
    ∃ s' t', exec i s = .next s' ∧ exec j t = .next t' ∧ SameControl s' t' ∧ SameEmission s s' t t') ∧
  (∀ s t : State, s.eseq ≠ .idle → SameControl s t →
    ∃ s' t', step s = .next s' ∧ step t = .next t' ∧ SameControl s' t' ∧ SameEmission s s' t t')
end

