-- ==== Sys2Proof/Laws/Bytes.lean ====
section
/-! SUPPORT. Byte order: packing and unpacking of words and numbers undo each other (R51, R56, R79). -/

namespace Sys2Proof

/-- Unpacking a packed word gives its bytes back (R51). -/
theorem bytes32_le32 (b0 b1 b2 b3 : Byte) : bytes32 (le32 b0 b1 b2 b3) = [b0, b1, b2, b3] := by
  simp only [bytes32, List.cons.injEq, and_true]
  refine ⟨?_, ?_, ?_, ?_⟩ <;>
  · apply BitVec.eq_of_getLsbD_eq
    intro i hi
    simp only [byteOf, le32, BitVec.getLsbD_extractLsb', BitVec.getLsbD_or, BitVec.getLsbD_shiftLeft,
      BitVec.getLsbD_setWidth]
    interval_cases i <;> simp

/-- Packing the bytes of a word gives the word back (R51). -/
theorem le32_byteOf (w : Word) : le32 (byteOf w 0) (byteOf w 1) (byteOf w 2) (byteOf w 3) = w := by
  apply BitVec.eq_of_getLsbD_eq
  intro i hi
  simp only [byteOf, le32, BitVec.getLsbD_extractLsb', BitVec.getLsbD_or, BitVec.getLsbD_shiftLeft,
    BitVec.getLsbD_setWidth]
  interval_cases i <;> simp

/-- A number has as many bytes as asked for. -/
@[simp] theorem natBytes_length (count n : Nat) : (natBytes count n).length = count := by
  induction count generalizing n with
  | zero => rfl
  | succ count ih => simp [natBytes, ih]

/-- Reading the bytes of a number gives the number back, if it fits (R79). -/
theorem leNat_natBytes (count n : Nat) (h : n < 256 ^ count) : leNat (natBytes count n) = n := by
  induction count generalizing n with
  | zero => simp at h; simp [natBytes, leNat, h]
  | succ count ih =>
    have hn : n / 256 < 256 ^ count := by
      rw [Nat.div_lt_iff_lt_mul (by decide)]; rwa [pow_succ] at h
    simp [natBytes, leNat, ih _ hn]; omega

/-- The number that `count` bytes denote is below `256 ^ count`. -/
theorem leNat_lt (bytes : List Byte) : leNat bytes < 256 ^ bytes.length := by
  induction bytes with
  | nil => simp [leNat]
  | cons b rest ih =>
    have := b.isLt
    simp only [leNat, List.length_cons, pow_succ]; omega

/-- Writing the number that a byte string denotes gives the byte string back (R56). -/
theorem natBytes_leNat (bytes : List Byte) : natBytes bytes.length (leNat bytes) = bytes := by
  induction bytes with
  | nil => rfl
  | cons b rest ih =>
    have hb := b.isLt
    have h1 : (b.toNat + 256 * leNat rest) / 256 = leNat rest := by omega
    simp only [List.length_cons, natBytes, leNat, h1, ih, List.cons.injEq, and_true]
    apply BitVec.eq_of_toNat_eq
    simpa using hb

/-- LEN64 reads back the length that stands in the frame from offset `p` on (R79). -/
theorem fieldLen64_append (head : List Byte) (n : Nat) (rest : List Byte) (h : n < 2 ^ 64) :
    fieldLen64 (head ++ (natBytes 8 n ++ rest)) head.length = n := by
  have : (natBytes 8 n ++ rest).take 8 = natBytes 8 n := List.take_left' (natBytes_length 8 n)
  simp only [fieldLen64, List.drop_left, this]
  exact leNat_natBytes 8 n (by simpa using h)

end Sys2Proof
end

