-- ==== Sys2Proof/Laws/Datapath.lean ====
section
/-! SUPPORT. What applying the quarter-round through an index group does to each word (R113), and lengths. -/

namespace Sys2Proof.Machine

/-! ### The index groups (R89) -/

@[simp] theorem group_zero : group 0 = ⟨0, 4, 8, 12⟩ := by decide
@[simp] theorem group_one : group 1 = ⟨1, 5, 9, 13⟩ := by decide
@[simp] theorem group_two : group 2 = ⟨2, 6, 10, 14⟩ := by decide
@[simp] theorem group_three : group 3 = ⟨3, 7, 11, 15⟩ := by decide
@[simp] theorem group_four : group 4 = ⟨0, 5, 10, 15⟩ := by decide
@[simp] theorem group_five : group 5 = ⟨1, 6, 11, 12⟩ := by decide
@[simp] theorem group_six : group 6 = ⟨2, 7, 8, 13⟩ := by decide
@[simp] theorem group_seven : group 7 = ⟨3, 4, 9, 14⟩ := by decide

/-- The four indices of a group are different words. -/
def DistinctIndices (g : IndexGroup) : Prop :=
  g.a ≠ g.b ∧ g.a ≠ g.c ∧ g.a ≠ g.d ∧ g.b ≠ g.c ∧ g.b ≠ g.d ∧ g.c ≠ g.d

/-- Every group of the table names four different words (R114). -/
theorem group_distinct (t : Fin 8) : DistinctIndices (group t) := by
  fin_cases t <;> simp [DistinctIndices]

/-! ### Reading and writing a group (R113) -/

/-- A word that the group does not name is not written. -/
theorem writeGroup_other (x : Block) (g : IndexGroup) (q : Quad) (i : Fin 16)
    (ha : i ≠ g.a) (hb : i ≠ g.b) (hc : i ≠ g.c) (hd : i ≠ g.d) : (writeGroup x g q)[i] = x[i] := by
  have e (u v : Fin 16) (h : u ≠ v) : v.val ≠ u.val := fun k => h (Fin.ext k.symm)
  simp [writeGroup, e _ _ ha, e _ _ hb, e _ _ hc, e _ _ hd]

/-- Reading back what was written to a group of different words. -/
theorem readGroup_writeGroup (x : Block) (g : IndexGroup) (q : Quad) (h : DistinctIndices g) :
    readGroup (writeGroup x g q) g = q := by
  obtain ⟨hab, hac, had, hbc, hbd, hcd⟩ := h
  have e (u v : Fin 16) (h : u ≠ v) : v.val ≠ u.val := fun k => h (Fin.ext k.symm)
  simp [readGroup, writeGroup, e _ _ hab, e _ _ hac, e _ _ had, e _ _ hbc, e _ _ hbd, e _ _ hcd]

/-- Writing a group of different words back as it was read changes nothing. -/
theorem writeGroup_readGroup (x : Block) (g : IndexGroup) : writeGroup x g (readGroup x g) = x := by
  ext i hi
  simp only [writeGroup, readGroup, Vector.getElem_set, Fin.getElem_fin]
  split_ifs <;> simp_all

/-- A second write to the same group hides the first. -/
theorem writeGroup_writeGroup (x : Block) (g : IndexGroup) (p q : Quad) :
    writeGroup (writeGroup x g p) g q = writeGroup x g q := by
  ext i hi
  simp only [writeGroup, Vector.getElem_set]
  split_ifs <;> rfl

/-- After `QRAPPLY(X, t)` the four words of the group hold the quarter-round of what they held (R113). -/
theorem readGroup_qrApply (x : Block) (t : Fin 8) :
    readGroup (qrApply x t) (group t) = qr (readGroup x (group t)) :=
  readGroup_writeGroup x _ _ (group_distinct t)

/-- `QRAPPLY(X, t)` leaves the twelve other words (R113). -/
theorem qrApply_other (x : Block) (t : Fin 8) (i : Fin 16) (ha : i ≠ (group t).a) (hb : i ≠ (group t).b)
    (hc : i ≠ (group t).c) (hd : i ≠ (group t).d) : (qrApply x t)[i] = x[i] :=
  writeGroup_other x _ _ i ha hb hc hd

/-! ### The finalisation and the serialisation -/

/-- Word `i` of the sum is the sum of words `i` (R135). -/
theorem finalAdd_getElem (x s : Block) (i : Fin 16) : (finalAdd x s)[i] = add32 x[i] s[i] := by
  simp [finalAdd]

/-- Byte `j` of a keystream block (R136). -/
theorem serialise_getElem (z : Block) (j : Fin 64) :
    (serialise z)[j] = byteOf (z[j.val / 4]'(by omega)) (j.val % 4) := by
  simp [serialise]

end Sys2Proof.Machine
end

