-- ==== Sys2Proof/Laws/Decode.lean ====
section
/-! SUPPORT. What the decoder can answer, said once (R86), and how the encoder's frames read. -/

namespace Sys2Proof

/-- A defined opcode byte that is none of 0x06, 0x02, 0x01, 0x03, 0x05 is 0x04 (R82). -/
theorem opcode_four {b : Byte} (hres : ¬ (b = 0x00 ∨ 0x07 ≤ b.toNat)) (h6 : ¬ b = 0x06) (h2 : ¬ b = 0x02)
    (h1 : ¬ b = 0x01) (h3 : ¬ b = 0x03) (h5 : ¬ b = 0x05) : b = 0x04 := by
  rw [not_or] at hres
  bv_omega

/-- What a frame must be to decode to a command (R86). -/
theorem decodeFrame_instr {f : Frame} {i : Instr} (h : decodeFrame f = .instr i) :
    (byteAt f 0 = 0x06 ∧ f.length = 1 ∧ i = .next) ∨
    (byteAt f 0 = 0x02 ∧ f.length = 5 ∧ i = .ksb (fieldCtr32 f)) ∨
    (byteAt f 0 = 0x01 ∧ 7 ≤ f.length ∧ f.length = 7 + fieldKlen f + fieldNlen f ∧
      i = .init (fieldCtr32 f) ((f.drop 7).take (fieldKlen f)) (f.drop (7 + fieldKlen f))) ∨
    (byteAt f 0 = 0x03 ∧ 9 ≤ f.length ∧ f.length = 9 + fieldLen64 f 1 ∧ i = .enc (f.drop 9)) ∨
    (byteAt f 0 = 0x05 ∧ 9 ≤ f.length ∧ f.length = 9 + fieldLen64 f 1 ∧ i = .encs (f.drop 9)) ∨
    (byteAt f 0 = 0x04 ∧ 13 ≤ f.length ∧ f.length = 13 + fieldLen64 f 5 ∧ i = .encc (fieldCtr32 f) (f.drop 13)) := by
  rw [decodeFrame] at h
  by_cases hlen : f.length = 0
  · rw [if_pos hlen] at h; cases h
  rw [if_neg hlen] at h
  by_cases hres : byteAt f 0 = 0x00 ∨ 0x07 ≤ (byteAt f 0).toNat
  · rw [if_pos hres] at h; cases h
  rw [if_neg hres] at h
  by_cases h6 : byteAt f 0 = 0x06
  · rw [if_pos h6] at h; split at h <;> cases h
    exact .inl ⟨h6, ‹_›, rfl⟩
  rw [if_neg h6] at h
  by_cases h2 : byteAt f 0 = 0x02
  · rw [if_pos h2] at h; split at h <;> cases h
    exact .inr (.inl ⟨h2, ‹_›, rfl⟩)
  rw [if_neg h2] at h
  by_cases h1 : byteAt f 0 = 0x01
  · rw [if_pos h1] at h; split at h <;> cases h
    rename_i hl
    exact .inr (.inr (.inl ⟨h1, hl.1, hl.2, rfl⟩))
  rw [if_neg h1] at h
  by_cases h3 : byteAt f 0 = 0x03
  · rw [if_pos h3] at h; split at h <;> cases h
    rename_i hl
    exact .inr (.inr (.inr (.inl ⟨h3, hl.1, hl.2, rfl⟩)))
  rw [if_neg h3] at h
  by_cases h5 : byteAt f 0 = 0x05
  · rw [if_pos h5] at h; split at h <;> cases h
    rename_i hl
    exact .inr (.inr (.inr (.inr (.inl ⟨h5, hl.1, hl.2, rfl⟩))))
  rw [if_neg h5] at h
  split at h <;> cases h
  rename_i hl
  exact .inr (.inr (.inr (.inr (.inr ⟨opcode_four hres h6 h2 h1 h3 h5, hl.1, hl.2, rfl⟩))))

/-- Byte 0 of a non-empty frame. -/
@[simp] theorem byteAt_cons_zero (b : Byte) (rest : Frame) : byteAt (b :: rest) 0 = b := rfl

/-- The counter field of a frame that carries one at bytes 1..4 (R73, R74, R76). -/
theorem fieldCtr32_cons (opc : Byte) (ctr : Word) (rest : List Byte) :
    fieldCtr32 (opc :: (bytes32 ctr ++ rest)) = ctr := le32_byteOf ctr

/-- LEN64 in format D (R75). -/
theorem fieldLen64_formatD (opc : Byte) (data : List Byte) (h : data.length < 2 ^ 64) :
    fieldLen64 (encodeD opc data) 1 = data.length := fieldLen64_append [opc] data.length data h

/-- LEN64 in format CD (R76). -/
theorem fieldLen64_formatCD (opc : Byte) (ctr : Word) (data : List Byte) (h : data.length < 2 ^ 64) :
    fieldLen64 (encodeCD opc ctr data) 5 = data.length :=
  fieldLen64_append (opc :: bytes32 ctr) data.length data h

/-- KLEN and NLEN in format K (R74). -/
theorem fieldKlen_formatK (opc : Byte) (ctr : Word) (key nonce : List Byte) (h : key.length < 2 ^ 8) :
    fieldKlen (encodeK opc ctr key nonce) = key.length := by
  show (BitVec.ofNat 8 key.length).toNat = key.length
  simpa using h

theorem fieldNlen_formatK (opc : Byte) (ctr : Word) (key nonce : List Byte) (h : nonce.length < 2 ^ 8) :
    fieldNlen (encodeK opc ctr key nonce) = nonce.length := by
  show (BitVec.ofNat 8 nonce.length).toNat = nonce.length
  simpa using h

end Sys2Proof
end

