-- ==== Sys2Proof/Laws/State.lean ====
section
/-! SUPPORT. One lemma per field per update of the state, so that no later proof unfolds a record update. -/

namespace Sys2Proof.Machine

/-! ### `respond` (R60, R77) -/

@[simp] theorem respond_key (r : Response) (s : State) : (respond r s).key = s.key := rfl
@[simp] theorem respond_bc (r : Response) (s : State) : (respond r s).bc = s.bc := rfl
@[simp] theorem respond_nonce (r : Response) (s : State) : (respond r s).nonce = s.nonce := rfl
@[simp] theorem respond_ic (r : Response) (s : State) : (respond r s).ic = s.ic := rfl
@[simp] theorem respond_ctr (r : Response) (s : State) : (respond r s).ctr = s.ctr := rfl
@[simp] theorem respond_keyed (r : Response) (s : State) : (respond r s).keyed = s.keyed := rfl
@[simp] theorem respond_x (r : Response) (s : State) : (respond r s).x = s.x := rfl
@[simp] theorem respond_z (r : Response) (s : State) : (respond r s).z = s.z := rfl
@[simp] theorem respond_ks (r : Response) (s : State) : (respond r s).ks = s.ks := rfl
@[simp] theorem respond_eseq (r : Response) (s : State) : (respond r s).eseq = s.eseq := rfl
@[simp] theorem respond_base (r : Response) (s : State) : (respond r s).base = s.base := rfl
@[simp] theorem respond_nblk (r : Response) (s : State) : (respond r s).nblk = s.nblk := rfl
@[simp] theorem respond_bi (r : Response) (s : State) : (respond r s).bi = s.bi := rfl
@[simp] theorem respond_cmdIn (r : Response) (s : State) : (respond r s).cmdIn = s.cmdIn := rfl
@[simp] theorem respond_rspOut (r : Response) (s : State) : (respond r s).rspOut = s.rspOut ++ [r.frame] := rfl

/-! ### `raise` (R209) -/

@[simp] theorem raise_key (e : ErrorCode) (isInit : Bool) (s : State) : (raise e isInit s).key = s.key := rfl
@[simp] theorem raise_bc (e : ErrorCode) (isInit : Bool) (s : State) : (raise e isInit s).bc = s.bc := rfl
@[simp] theorem raise_nonce (e : ErrorCode) (isInit : Bool) (s : State) : (raise e isInit s).nonce = s.nonce := rfl
@[simp] theorem raise_ic (e : ErrorCode) (isInit : Bool) (s : State) : (raise e isInit s).ic = s.ic := rfl
@[simp] theorem raise_ctr (e : ErrorCode) (isInit : Bool) (s : State) : (raise e isInit s).ctr = s.ctr := rfl
@[simp] theorem raise_keyed (e : ErrorCode) (isInit : Bool) (s : State) : (raise e isInit s).keyed = (s.keyed && !isInit) := rfl
@[simp] theorem raise_x (e : ErrorCode) (isInit : Bool) (s : State) : (raise e isInit s).x = s.x := rfl
@[simp] theorem raise_z (e : ErrorCode) (isInit : Bool) (s : State) : (raise e isInit s).z = s.z := rfl
@[simp] theorem raise_ks (e : ErrorCode) (isInit : Bool) (s : State) : (raise e isInit s).ks = s.ks := rfl
@[simp] theorem raise_eseq (e : ErrorCode) (isInit : Bool) (s : State) : (raise e isInit s).eseq = .idle := rfl
@[simp] theorem raise_base (e : ErrorCode) (isInit : Bool) (s : State) : (raise e isInit s).base = s.base := rfl
@[simp] theorem raise_nblk (e : ErrorCode) (isInit : Bool) (s : State) : (raise e isInit s).nblk = s.nblk := rfl
@[simp] theorem raise_bi (e : ErrorCode) (isInit : Bool) (s : State) : (raise e isInit s).bi = s.bi := rfl
@[simp] theorem raise_cmdIn (e : ErrorCode) (isInit : Bool) (s : State) : (raise e isInit s).cmdIn = s.cmdIn := rfl
@[simp] theorem raise_rspOut (e : ErrorCode) (isInit : Bool) (s : State) : (raise e isInit s).rspOut = s.rspOut ++ [(Response.error e).frame] := rfl

/-! ### `loadInstance` (R170) -/

@[simp] theorem loadInstance_key (ctr : Word) (key nonce : List Byte) (s : State) : (loadInstance ctr key nonce s).key = packKey key := rfl
@[simp] theorem loadInstance_bc (ctr : Word) (key nonce : List Byte) (s : State) : (loadInstance ctr key nonce s).bc = ctr := rfl
@[simp] theorem loadInstance_nonce (ctr : Word) (key nonce : List Byte) (s : State) : (loadInstance ctr key nonce s).nonce = packNonce nonce := rfl
@[simp] theorem loadInstance_ic (ctr : Word) (key nonce : List Byte) (s : State) : (loadInstance ctr key nonce s).ic = ctr := rfl
@[simp] theorem loadInstance_ctr (ctr : Word) (key nonce : List Byte) (s : State) : (loadInstance ctr key nonce s).ctr = ctr.setWidth 33 := rfl
@[simp] theorem loadInstance_keyed (ctr : Word) (key nonce : List Byte) (s : State) : (loadInstance ctr key nonce s).keyed = true := rfl
@[simp] theorem loadInstance_x (ctr : Word) (key nonce : List Byte) (s : State) : (loadInstance ctr key nonce s).x = s.x := rfl
@[simp] theorem loadInstance_z (ctr : Word) (key nonce : List Byte) (s : State) : (loadInstance ctr key nonce s).z = s.z := rfl
@[simp] theorem loadInstance_ks (ctr : Word) (key nonce : List Byte) (s : State) : (loadInstance ctr key nonce s).ks = s.ks := rfl
@[simp] theorem loadInstance_eseq (ctr : Word) (key nonce : List Byte) (s : State) : (loadInstance ctr key nonce s).eseq = s.eseq := rfl
@[simp] theorem loadInstance_base (ctr : Word) (key nonce : List Byte) (s : State) : (loadInstance ctr key nonce s).base = s.base := rfl
@[simp] theorem loadInstance_nblk (ctr : Word) (key nonce : List Byte) (s : State) : (loadInstance ctr key nonce s).nblk = s.nblk := rfl
@[simp] theorem loadInstance_bi (ctr : Word) (key nonce : List Byte) (s : State) : (loadInstance ctr key nonce s).bi = s.bi := rfl
@[simp] theorem loadInstance_cmdIn (ctr : Word) (key nonce : List Byte) (s : State) : (loadInstance ctr key nonce s).cmdIn = s.cmdIn := rfl
@[simp] theorem loadInstance_rspOut (ctr : Word) (key nonce : List Byte) (s : State) : (loadInstance ctr key nonce s).rspOut = s.rspOut := rfl

/-! ### `writeCounter` (R160) -/

@[simp] theorem writeCounter_key (c : Word) (s : State) : (writeCounter c s).key = s.key := rfl
@[simp] theorem writeCounter_bc (c : Word) (s : State) : (writeCounter c s).bc = c := rfl
@[simp] theorem writeCounter_nonce (c : Word) (s : State) : (writeCounter c s).nonce = s.nonce := rfl
@[simp] theorem writeCounter_ic (c : Word) (s : State) : (writeCounter c s).ic = s.ic := rfl
@[simp] theorem writeCounter_ctr (c : Word) (s : State) : (writeCounter c s).ctr = s.ctr := rfl
@[simp] theorem writeCounter_keyed (c : Word) (s : State) : (writeCounter c s).keyed = s.keyed := rfl
@[simp] theorem writeCounter_x (c : Word) (s : State) : (writeCounter c s).x = s.x := rfl
@[simp] theorem writeCounter_z (c : Word) (s : State) : (writeCounter c s).z = s.z := rfl
@[simp] theorem writeCounter_ks (c : Word) (s : State) : (writeCounter c s).ks = s.ks := rfl
@[simp] theorem writeCounter_eseq (c : Word) (s : State) : (writeCounter c s).eseq = s.eseq := rfl
@[simp] theorem writeCounter_base (c : Word) (s : State) : (writeCounter c s).base = s.base := rfl
@[simp] theorem writeCounter_nblk (c : Word) (s : State) : (writeCounter c s).nblk = s.nblk := rfl
@[simp] theorem writeCounter_bi (c : Word) (s : State) : (writeCounter c s).bi = s.bi := rfl
@[simp] theorem writeCounter_cmdIn (c : Word) (s : State) : (writeCounter c s).cmdIn = s.cmdIn := rfl
@[simp] theorem writeCounter_rspOut (c : Word) (s : State) : (writeCounter c s).rspOut = s.rspOut := rfl

/-! ### `advanceCursor` (R174) -/

@[simp] theorem advanceCursor_key (s : State) : (advanceCursor s).key = s.key := rfl
@[simp] theorem advanceCursor_bc (s : State) : (advanceCursor s).bc = s.bc := rfl
@[simp] theorem advanceCursor_nonce (s : State) : (advanceCursor s).nonce = s.nonce := rfl
@[simp] theorem advanceCursor_ic (s : State) : (advanceCursor s).ic = s.ic := rfl
@[simp] theorem advanceCursor_ctr (s : State) : (advanceCursor s).ctr = s.ctr + 1 := rfl
@[simp] theorem advanceCursor_keyed (s : State) : (advanceCursor s).keyed = s.keyed := rfl
@[simp] theorem advanceCursor_x (s : State) : (advanceCursor s).x = s.x := rfl
@[simp] theorem advanceCursor_z (s : State) : (advanceCursor s).z = s.z := rfl
@[simp] theorem advanceCursor_ks (s : State) : (advanceCursor s).ks = s.ks := rfl
@[simp] theorem advanceCursor_eseq (s : State) : (advanceCursor s).eseq = s.eseq := rfl
@[simp] theorem advanceCursor_base (s : State) : (advanceCursor s).base = s.base := rfl
@[simp] theorem advanceCursor_nblk (s : State) : (advanceCursor s).nblk = s.nblk := rfl
@[simp] theorem advanceCursor_bi (s : State) : (advanceCursor s).bi = s.bi := rfl
@[simp] theorem advanceCursor_cmdIn (s : State) : (advanceCursor s).cmdIn = s.cmdIn := rfl
@[simp] theorem advanceCursor_rspOut (s : State) : (advanceCursor s).rspOut = s.rspOut := rfl

/-! ### `beginData` (R34) -/

@[simp] theorem beginData_key (base : Word) (blocks : Nat) (s : State) : (beginData base blocks s).key = s.key := rfl
@[simp] theorem beginData_bc (base : Word) (blocks : Nat) (s : State) : (beginData base blocks s).bc = s.bc := rfl
@[simp] theorem beginData_nonce (base : Word) (blocks : Nat) (s : State) : (beginData base blocks s).nonce = s.nonce := rfl
@[simp] theorem beginData_ic (base : Word) (blocks : Nat) (s : State) : (beginData base blocks s).ic = s.ic := rfl
@[simp] theorem beginData_ctr (base : Word) (blocks : Nat) (s : State) : (beginData base blocks s).ctr = s.ctr := rfl
@[simp] theorem beginData_keyed (base : Word) (blocks : Nat) (s : State) : (beginData base blocks s).keyed = s.keyed := rfl
@[simp] theorem beginData_x (base : Word) (blocks : Nat) (s : State) : (beginData base blocks s).x = s.x := rfl
@[simp] theorem beginData_z (base : Word) (blocks : Nat) (s : State) : (beginData base blocks s).z = s.z := rfl
@[simp] theorem beginData_ks (base : Word) (blocks : Nat) (s : State) : (beginData base blocks s).ks = s.ks := rfl
@[simp] theorem beginData_eseq (base : Word) (blocks : Nat) (s : State) : (beginData base blocks s).eseq = s.eseq := rfl
@[simp] theorem beginData_base (base : Word) (blocks : Nat) (s : State) : (beginData base blocks s).base = base := rfl
@[simp] theorem beginData_nblk (base : Word) (blocks : Nat) (s : State) : (beginData base blocks s).nblk = BitVec.ofNat 59 blocks := rfl
@[simp] theorem beginData_bi (base : Word) (blocks : Nat) (s : State) : (beginData base blocks s).bi = s.bi := rfl
@[simp] theorem beginData_cmdIn (base : Word) (blocks : Nat) (s : State) : (beginData base blocks s).cmdIn = s.cmdIn := rfl
@[simp] theorem beginData_rspOut (base : Word) (blocks : Nat) (s : State) : (beginData base blocks s).rspOut = s.rspOut := rfl

/-! ### `beginChunk` (R34) -/

@[simp] theorem beginChunk_key (i : Nat) (s : State) : (beginChunk i s).key = s.key := rfl
@[simp] theorem beginChunk_bc (i : Nat) (s : State) : (beginChunk i s).bc = s.bc := rfl
@[simp] theorem beginChunk_nonce (i : Nat) (s : State) : (beginChunk i s).nonce = s.nonce := rfl
@[simp] theorem beginChunk_ic (i : Nat) (s : State) : (beginChunk i s).ic = s.ic := rfl
@[simp] theorem beginChunk_ctr (i : Nat) (s : State) : (beginChunk i s).ctr = s.ctr := rfl
@[simp] theorem beginChunk_keyed (i : Nat) (s : State) : (beginChunk i s).keyed = s.keyed := rfl
@[simp] theorem beginChunk_x (i : Nat) (s : State) : (beginChunk i s).x = s.x := rfl
@[simp] theorem beginChunk_z (i : Nat) (s : State) : (beginChunk i s).z = s.z := rfl
@[simp] theorem beginChunk_ks (i : Nat) (s : State) : (beginChunk i s).ks = s.ks := rfl
@[simp] theorem beginChunk_eseq (i : Nat) (s : State) : (beginChunk i s).eseq = s.eseq := rfl
@[simp] theorem beginChunk_base (i : Nat) (s : State) : (beginChunk i s).base = s.base := rfl
@[simp] theorem beginChunk_nblk (i : Nat) (s : State) : (beginChunk i s).nblk = s.nblk := rfl
@[simp] theorem beginChunk_bi (i : Nat) (s : State) : (beginChunk i s).bi = BitVec.ofNat 59 i := rfl
@[simp] theorem beginChunk_cmdIn (i : Nat) (s : State) : (beginChunk i s).cmdIn = s.cmdIn := rfl
@[simp] theorem beginChunk_rspOut (i : Nat) (s : State) : (beginChunk i s).rspOut = s.rspOut := rfl

/-! ### `applyEntry` (R113) -/

@[simp] theorem applyEntry_key (t : Fin 8) (s : State) : (applyEntry t s).key = s.key := rfl
@[simp] theorem applyEntry_bc (t : Fin 8) (s : State) : (applyEntry t s).bc = s.bc := rfl
@[simp] theorem applyEntry_nonce (t : Fin 8) (s : State) : (applyEntry t s).nonce = s.nonce := rfl
@[simp] theorem applyEntry_ic (t : Fin 8) (s : State) : (applyEntry t s).ic = s.ic := rfl
@[simp] theorem applyEntry_ctr (t : Fin 8) (s : State) : (applyEntry t s).ctr = s.ctr := rfl
@[simp] theorem applyEntry_keyed (t : Fin 8) (s : State) : (applyEntry t s).keyed = s.keyed := rfl
@[simp] theorem applyEntry_x (t : Fin 8) (s : State) : (applyEntry t s).x = qrApply s.x t := rfl
@[simp] theorem applyEntry_z (t : Fin 8) (s : State) : (applyEntry t s).z = s.z := rfl
@[simp] theorem applyEntry_ks (t : Fin 8) (s : State) : (applyEntry t s).ks = s.ks := rfl
@[simp] theorem applyEntry_eseq (t : Fin 8) (s : State) : (applyEntry t s).eseq = s.eseq := rfl
@[simp] theorem applyEntry_base (t : Fin 8) (s : State) : (applyEntry t s).base = s.base := rfl
@[simp] theorem applyEntry_nblk (t : Fin 8) (s : State) : (applyEntry t s).nblk = s.nblk := rfl
@[simp] theorem applyEntry_bi (t : Fin 8) (s : State) : (applyEntry t s).bi = s.bi := rfl
@[simp] theorem applyEntry_cmdIn (t : Fin 8) (s : State) : (applyEntry t s).cmdIn = s.cmdIn := rfl
@[simp] theorem applyEntry_rspOut (t : Fin 8) (s : State) : (applyEntry t s).rspOut = s.rspOut := rfl

/-! ### `takeFrame` (R236) -/

@[simp] theorem takeFrame_key (s : State) : (takeFrame s).key = s.key := rfl
@[simp] theorem takeFrame_bc (s : State) : (takeFrame s).bc = s.bc := rfl
@[simp] theorem takeFrame_nonce (s : State) : (takeFrame s).nonce = s.nonce := rfl
@[simp] theorem takeFrame_ic (s : State) : (takeFrame s).ic = s.ic := rfl
@[simp] theorem takeFrame_ctr (s : State) : (takeFrame s).ctr = s.ctr := rfl
@[simp] theorem takeFrame_keyed (s : State) : (takeFrame s).keyed = s.keyed := rfl
@[simp] theorem takeFrame_x (s : State) : (takeFrame s).x = s.x := rfl
@[simp] theorem takeFrame_z (s : State) : (takeFrame s).z = s.z := rfl
@[simp] theorem takeFrame_ks (s : State) : (takeFrame s).ks = s.ks := rfl
@[simp] theorem takeFrame_eseq (s : State) : (takeFrame s).eseq = s.eseq := rfl
@[simp] theorem takeFrame_base (s : State) : (takeFrame s).base = s.base := rfl
@[simp] theorem takeFrame_nblk (s : State) : (takeFrame s).nblk = s.nblk := rfl
@[simp] theorem takeFrame_bi (s : State) : (takeFrame s).bi = s.bi := rfl
@[simp] theorem takeFrame_cmdIn (s : State) : (takeFrame s).cmdIn = s.cmdIn.tail := rfl
@[simp] theorem takeFrame_rspOut (s : State) : (takeFrame s).rspOut = s.rspOut := rfl

/-! ### `send` (R70) -/

@[simp] theorem send_key (f : Frame) (s : State) : (send f s).key = s.key := rfl
@[simp] theorem send_bc (f : Frame) (s : State) : (send f s).bc = s.bc := rfl
@[simp] theorem send_nonce (f : Frame) (s : State) : (send f s).nonce = s.nonce := rfl
@[simp] theorem send_ic (f : Frame) (s : State) : (send f s).ic = s.ic := rfl
@[simp] theorem send_ctr (f : Frame) (s : State) : (send f s).ctr = s.ctr := rfl
@[simp] theorem send_keyed (f : Frame) (s : State) : (send f s).keyed = s.keyed := rfl
@[simp] theorem send_x (f : Frame) (s : State) : (send f s).x = s.x := rfl
@[simp] theorem send_z (f : Frame) (s : State) : (send f s).z = s.z := rfl
@[simp] theorem send_ks (f : Frame) (s : State) : (send f s).ks = s.ks := rfl
@[simp] theorem send_eseq (f : Frame) (s : State) : (send f s).eseq = s.eseq := rfl
@[simp] theorem send_base (f : Frame) (s : State) : (send f s).base = s.base := rfl
@[simp] theorem send_nblk (f : Frame) (s : State) : (send f s).nblk = s.nblk := rfl
@[simp] theorem send_bi (f : Frame) (s : State) : (send f s).bi = s.bi := rfl
@[simp] theorem send_cmdIn (f : Frame) (s : State) : (send f s).cmdIn = s.cmdIn ++ [f] := rfl
@[simp] theorem send_rspOut (f : Frame) (s : State) : (send f s).rspOut = s.rspOut := rfl

/-! ### `takeResponse` (R246) -/

@[simp] theorem takeResponse_key (s : State) : (takeResponse s).key = s.key := rfl
@[simp] theorem takeResponse_bc (s : State) : (takeResponse s).bc = s.bc := rfl
@[simp] theorem takeResponse_nonce (s : State) : (takeResponse s).nonce = s.nonce := rfl
@[simp] theorem takeResponse_ic (s : State) : (takeResponse s).ic = s.ic := rfl
@[simp] theorem takeResponse_ctr (s : State) : (takeResponse s).ctr = s.ctr := rfl
@[simp] theorem takeResponse_keyed (s : State) : (takeResponse s).keyed = s.keyed := rfl
@[simp] theorem takeResponse_x (s : State) : (takeResponse s).x = s.x := rfl
@[simp] theorem takeResponse_z (s : State) : (takeResponse s).z = s.z := rfl
@[simp] theorem takeResponse_ks (s : State) : (takeResponse s).ks = s.ks := rfl
@[simp] theorem takeResponse_eseq (s : State) : (takeResponse s).eseq = s.eseq := rfl
@[simp] theorem takeResponse_base (s : State) : (takeResponse s).base = s.base := rfl
@[simp] theorem takeResponse_nblk (s : State) : (takeResponse s).nblk = s.nblk := rfl
@[simp] theorem takeResponse_bi (s : State) : (takeResponse s).bi = s.bi := rfl
@[simp] theorem takeResponse_cmdIn (s : State) : (takeResponse s).cmdIn = s.cmdIn := rfl
@[simp] theorem takeResponse_rspOut (s : State) : (takeResponse s).rspOut = s.rspOut.tail := rfl

/-! ### `applyReset` (R231) -/

@[simp] theorem applyReset_key (s : State) : (applyReset s).key = s.key := rfl
@[simp] theorem applyReset_bc (s : State) : (applyReset s).bc = s.bc := rfl
@[simp] theorem applyReset_nonce (s : State) : (applyReset s).nonce = s.nonce := rfl
@[simp] theorem applyReset_ic (s : State) : (applyReset s).ic = s.ic := rfl
@[simp] theorem applyReset_ctr (s : State) : (applyReset s).ctr = s.ctr := rfl
@[simp] theorem applyReset_keyed (s : State) : (applyReset s).keyed = false := rfl
@[simp] theorem applyReset_x (s : State) : (applyReset s).x = s.x := rfl
@[simp] theorem applyReset_z (s : State) : (applyReset s).z = s.z := rfl
@[simp] theorem applyReset_ks (s : State) : (applyReset s).ks = s.ks := rfl
@[simp] theorem applyReset_eseq (s : State) : (applyReset s).eseq = .idle := rfl
@[simp] theorem applyReset_base (s : State) : (applyReset s).base = s.base := rfl
@[simp] theorem applyReset_nblk (s : State) : (applyReset s).nblk = s.nblk := rfl
@[simp] theorem applyReset_bi (s : State) : (applyReset s).bi = s.bi := rfl
@[simp] theorem applyReset_cmdIn (s : State) : (applyReset s).cmdIn = [] := rfl
@[simp] theorem applyReset_rspOut (s : State) : (applyReset s).rspOut = [] := rfl

/-! ### `engineStart` (R140) -/

@[simp] theorem engineStart_key (s : State) : (engineStart s).key = s.key := rfl
@[simp] theorem engineStart_bc (s : State) : (engineStart s).bc = s.bc := rfl
@[simp] theorem engineStart_nonce (s : State) : (engineStart s).nonce = s.nonce := rfl
@[simp] theorem engineStart_ic (s : State) : (engineStart s).ic = s.ic := rfl
@[simp] theorem engineStart_ctr (s : State) : (engineStart s).ctr = s.ctr := rfl
@[simp] theorem engineStart_keyed (s : State) : (engineStart s).keyed = s.keyed := rfl
@[simp] theorem engineStart_x (s : State) : (engineStart s).x = sWords s := rfl
@[simp] theorem engineStart_z (s : State) : (engineStart s).z = s.z := rfl
@[simp] theorem engineStart_ks (s : State) : (engineStart s).ks = s.ks := rfl
@[simp] theorem engineStart_eseq (s : State) : (engineStart s).eseq = .round 0 .col noLanes := rfl
@[simp] theorem engineStart_base (s : State) : (engineStart s).base = s.base := rfl
@[simp] theorem engineStart_nblk (s : State) : (engineStart s).nblk = s.nblk := rfl
@[simp] theorem engineStart_bi (s : State) : (engineStart s).bi = s.bi := rfl
@[simp] theorem engineStart_cmdIn (s : State) : (engineStart s).cmdIn = s.cmdIn := rfl
@[simp] theorem engineStart_rspOut (s : State) : (engineStart s).rspOut = s.rspOut := rfl

/-! ### `engineFadd` (R143) -/

@[simp] theorem engineFadd_key (s : State) : (engineFadd s).key = s.key := by simp only [engineFadd]
@[simp] theorem engineFadd_bc (s : State) : (engineFadd s).bc = s.bc := by simp only [engineFadd]
@[simp] theorem engineFadd_nonce (s : State) : (engineFadd s).nonce = s.nonce := by simp only [engineFadd]
@[simp] theorem engineFadd_ic (s : State) : (engineFadd s).ic = s.ic := by simp only [engineFadd]
@[simp] theorem engineFadd_ctr (s : State) : (engineFadd s).ctr = s.ctr := by simp only [engineFadd]
@[simp] theorem engineFadd_keyed (s : State) : (engineFadd s).keyed = s.keyed := by simp only [engineFadd]
@[simp] theorem engineFadd_x (s : State) : (engineFadd s).x = s.x := by simp only [engineFadd]
@[simp] theorem engineFadd_z (s : State) : (engineFadd s).z = finalAdd s.x (sWords s) := by simp only [engineFadd]
@[simp] theorem engineFadd_ks (s : State) : (engineFadd s).ks = s.ks := by simp only [engineFadd]
@[simp] theorem engineFadd_eseq (s : State) : (engineFadd s).eseq = .serial := by simp only [engineFadd]
@[simp] theorem engineFadd_base (s : State) : (engineFadd s).base = s.base := by simp only [engineFadd]
@[simp] theorem engineFadd_nblk (s : State) : (engineFadd s).nblk = s.nblk := by simp only [engineFadd]
@[simp] theorem engineFadd_bi (s : State) : (engineFadd s).bi = s.bi := by simp only [engineFadd]
@[simp] theorem engineFadd_cmdIn (s : State) : (engineFadd s).cmdIn = s.cmdIn := by simp only [engineFadd]
@[simp] theorem engineFadd_rspOut (s : State) : (engineFadd s).rspOut = s.rspOut := by simp only [engineFadd]

/-! ### `engineSer` (R144) -/

@[simp] theorem engineSer_key (s : State) : (engineSer s).key = s.key := by simp only [engineSer]
@[simp] theorem engineSer_bc (s : State) : (engineSer s).bc = s.bc := by simp only [engineSer]
@[simp] theorem engineSer_nonce (s : State) : (engineSer s).nonce = s.nonce := by simp only [engineSer]
@[simp] theorem engineSer_ic (s : State) : (engineSer s).ic = s.ic := by simp only [engineSer]
@[simp] theorem engineSer_ctr (s : State) : (engineSer s).ctr = s.ctr := by simp only [engineSer]
@[simp] theorem engineSer_keyed (s : State) : (engineSer s).keyed = s.keyed := by simp only [engineSer]
@[simp] theorem engineSer_x (s : State) : (engineSer s).x = s.x := by simp only [engineSer]
@[simp] theorem engineSer_z (s : State) : (engineSer s).z = s.z := by simp only [engineSer]
@[simp] theorem engineSer_ks (s : State) : (engineSer s).ks = serialise s.z := by simp only [engineSer]
@[simp] theorem engineSer_eseq (s : State) : (engineSer s).eseq = .done := by simp only [engineSer]
@[simp] theorem engineSer_base (s : State) : (engineSer s).base = s.base := by simp only [engineSer]
@[simp] theorem engineSer_nblk (s : State) : (engineSer s).nblk = s.nblk := by simp only [engineSer]
@[simp] theorem engineSer_bi (s : State) : (engineSer s).bi = s.bi := by simp only [engineSer]
@[simp] theorem engineSer_cmdIn (s : State) : (engineSer s).cmdIn = s.cmdIn := by simp only [engineSer]
@[simp] theorem engineSer_rspOut (s : State) : (engineSer s).rspOut = s.rspOut := by simp only [engineSer]

/-! ### `engineTake` (R145) -/

@[simp] theorem engineTake_key (s : State) : (engineTake s).key = s.key := rfl
@[simp] theorem engineTake_bc (s : State) : (engineTake s).bc = s.bc := rfl
@[simp] theorem engineTake_nonce (s : State) : (engineTake s).nonce = s.nonce := rfl
@[simp] theorem engineTake_ic (s : State) : (engineTake s).ic = s.ic := rfl
@[simp] theorem engineTake_ctr (s : State) : (engineTake s).ctr = s.ctr := rfl
@[simp] theorem engineTake_keyed (s : State) : (engineTake s).keyed = s.keyed := rfl
@[simp] theorem engineTake_x (s : State) : (engineTake s).x = s.x := rfl
@[simp] theorem engineTake_z (s : State) : (engineTake s).z = s.z := rfl
@[simp] theorem engineTake_ks (s : State) : (engineTake s).ks = s.ks := rfl
@[simp] theorem engineTake_eseq (s : State) : (engineTake s).eseq = .idle := rfl
@[simp] theorem engineTake_base (s : State) : (engineTake s).base = s.base := rfl
@[simp] theorem engineTake_nblk (s : State) : (engineTake s).nblk = s.nblk := rfl
@[simp] theorem engineTake_bi (s : State) : (engineTake s).bi = s.bi := rfl
@[simp] theorem engineTake_cmdIn (s : State) : (engineTake s).cmdIn = s.cmdIn := rfl
@[simp] theorem engineTake_rspOut (s : State) : (engineTake s).rspOut = s.rspOut := rfl

/-! ### `markLane` (R141) -/

@[simp] theorem markLane_key (l : Fin 4) (s : State) : (markLane l s).key = s.key := by
  unfold markLane; split <;> rfl
@[simp] theorem markLane_bc (l : Fin 4) (s : State) : (markLane l s).bc = s.bc := by
  unfold markLane; split <;> rfl
@[simp] theorem markLane_nonce (l : Fin 4) (s : State) : (markLane l s).nonce = s.nonce := by
  unfold markLane; split <;> rfl
@[simp] theorem markLane_ic (l : Fin 4) (s : State) : (markLane l s).ic = s.ic := by
  unfold markLane; split <;> rfl
@[simp] theorem markLane_ctr (l : Fin 4) (s : State) : (markLane l s).ctr = s.ctr := by
  unfold markLane; split <;> rfl
@[simp] theorem markLane_keyed (l : Fin 4) (s : State) : (markLane l s).keyed = s.keyed := by
  unfold markLane; split <;> rfl
@[simp] theorem markLane_x (l : Fin 4) (s : State) : (markLane l s).x = s.x := by
  unfold markLane; split <;> rfl
@[simp] theorem markLane_z (l : Fin 4) (s : State) : (markLane l s).z = s.z := by
  unfold markLane; split <;> rfl
@[simp] theorem markLane_ks (l : Fin 4) (s : State) : (markLane l s).ks = s.ks := by
  unfold markLane; split <;> rfl
@[simp] theorem markLane_base (l : Fin 4) (s : State) : (markLane l s).base = s.base := by
  unfold markLane; split <;> rfl
@[simp] theorem markLane_nblk (l : Fin 4) (s : State) : (markLane l s).nblk = s.nblk := by
  unfold markLane; split <;> rfl
@[simp] theorem markLane_bi (l : Fin 4) (s : State) : (markLane l s).bi = s.bi := by
  unfold markLane; split <;> rfl
@[simp] theorem markLane_cmdIn (l : Fin 4) (s : State) : (markLane l s).cmdIn = s.cmdIn := by
  unfold markLane; split <;> rfl
@[simp] theorem markLane_rspOut (l : Fin 4) (s : State) : (markLane l s).rspOut = s.rspOut := by
  unfold markLane; split <;> rfl

/-! ### `engineLane` (R141) -/

@[simp] theorem engineLane_key (l : Fin 4) (s : State) : (engineLane l s).key = s.key := by
  unfold engineLane; split <;> simp
@[simp] theorem engineLane_bc (l : Fin 4) (s : State) : (engineLane l s).bc = s.bc := by
  unfold engineLane; split <;> simp
@[simp] theorem engineLane_nonce (l : Fin 4) (s : State) : (engineLane l s).nonce = s.nonce := by
  unfold engineLane; split <;> simp
@[simp] theorem engineLane_ic (l : Fin 4) (s : State) : (engineLane l s).ic = s.ic := by
  unfold engineLane; split <;> simp
@[simp] theorem engineLane_ctr (l : Fin 4) (s : State) : (engineLane l s).ctr = s.ctr := by
  unfold engineLane; split <;> simp
@[simp] theorem engineLane_keyed (l : Fin 4) (s : State) : (engineLane l s).keyed = s.keyed := by
  unfold engineLane; split <;> simp
@[simp] theorem engineLane_z (l : Fin 4) (s : State) : (engineLane l s).z = s.z := by
  unfold engineLane; split <;> simp
@[simp] theorem engineLane_ks (l : Fin 4) (s : State) : (engineLane l s).ks = s.ks := by
  unfold engineLane; split <;> simp
@[simp] theorem engineLane_base (l : Fin 4) (s : State) : (engineLane l s).base = s.base := by
  unfold engineLane; split <;> simp
@[simp] theorem engineLane_nblk (l : Fin 4) (s : State) : (engineLane l s).nblk = s.nblk := by
  unfold engineLane; split <;> simp
@[simp] theorem engineLane_bi (l : Fin 4) (s : State) : (engineLane l s).bi = s.bi := by
  unfold engineLane; split <;> simp
@[simp] theorem engineLane_cmdIn (l : Fin 4) (s : State) : (engineLane l s).cmdIn = s.cmdIn := by
  unfold engineLane; split <;> simp
@[simp] theorem engineLane_rspOut (l : Fin 4) (s : State) : (engineLane l s).rspOut = s.rspOut := by
  unfold engineLane; split <;> simp

/-! ### `engineBarrier` (R142) -/

@[simp] theorem engineBarrier_key (s : State) : (engineBarrier s).key = s.key := by
  unfold engineBarrier; split <;> rfl
@[simp] theorem engineBarrier_bc (s : State) : (engineBarrier s).bc = s.bc := by
  unfold engineBarrier; split <;> rfl
@[simp] theorem engineBarrier_nonce (s : State) : (engineBarrier s).nonce = s.nonce := by
  unfold engineBarrier; split <;> rfl
@[simp] theorem engineBarrier_ic (s : State) : (engineBarrier s).ic = s.ic := by
  unfold engineBarrier; split <;> rfl
@[simp] theorem engineBarrier_ctr (s : State) : (engineBarrier s).ctr = s.ctr := by
  unfold engineBarrier; split <;> rfl
@[simp] theorem engineBarrier_keyed (s : State) : (engineBarrier s).keyed = s.keyed := by
  unfold engineBarrier; split <;> rfl
@[simp] theorem engineBarrier_x (s : State) : (engineBarrier s).x = s.x := by
  unfold engineBarrier; split <;> rfl
@[simp] theorem engineBarrier_z (s : State) : (engineBarrier s).z = s.z := by
  unfold engineBarrier; split <;> rfl
@[simp] theorem engineBarrier_ks (s : State) : (engineBarrier s).ks = s.ks := by
  unfold engineBarrier; split <;> rfl
@[simp] theorem engineBarrier_base (s : State) : (engineBarrier s).base = s.base := by
  unfold engineBarrier; split <;> rfl
@[simp] theorem engineBarrier_nblk (s : State) : (engineBarrier s).nblk = s.nblk := by
  unfold engineBarrier; split <;> rfl
@[simp] theorem engineBarrier_bi (s : State) : (engineBarrier s).bi = s.bi := by
  unfold engineBarrier; split <;> rfl
@[simp] theorem engineBarrier_cmdIn (s : State) : (engineBarrier s).cmdIn = s.cmdIn := by
  unfold engineBarrier; split <;> rfl
@[simp] theorem engineBarrier_rspOut (s : State) : (engineBarrier s).rspOut = s.rspOut := by
  unfold engineBarrier; split <;> rfl

end Sys2Proof.Machine
end

