-- ==== Sys2Proof/Laws/Engine.lean ====
section
/-! SUPPORT. What a block computation does (R148, R160): the engine's 104 steps in the model's lane order leave
BLOCK and KSBYTES of the state register in Z and KS, and touch nothing else. -/

namespace Sys2Proof.Machine

/-- A run of two parts is the second after the first. -/
theorem engineRun_append (as bs : List EngineAct) (s : State) :
    engineRun (as ++ bs) s = engineRun bs (engineRun as s) := by
  simp [engineRun]

/-- A column phase, from its start to the barrier behind it (R131, R142). -/
theorem engineRun_col (s : State) (dr : Fin 10) (h : s.eseq = .round dr .col noLanes) :
    engineRun phaseActs s = { s with x := colRound s.x, eseq := .round dr .diag noLanes } := by
  simp [engineRun, phaseActs, Config.laneOrder, engineDo, engineLane, engineBarrier, markLane, applyEntry, h,
    tableIndex, colRound, afterBarrier]

/-- A diagonal phase, from its start to the barrier behind it (R132, R142). -/
theorem engineRun_diag (s : State) (dr : Fin 10) (h : s.eseq = .round dr .diag noLanes) :
    engineRun phaseActs s = { s with x := diagRound s.x, eseq := afterBarrier dr .diag } := by
  simp [engineRun, phaseActs, Config.laneOrder, engineDo, engineLane, engineBarrier, markLane, applyEntry, h,
    tableIndex, diagRound]

/-- A double-round, from its start to the barrier behind it (R133). -/
theorem engineRun_double (s : State) (dr : Fin 10) (h : s.eseq = .round dr .col noLanes) :
    engineRun (phaseActs ++ phaseActs) s = { s with x := doubleRound s.x, eseq := afterBarrier dr .diag } := by
  rw [engineRun_append, engineRun_col s dr h, engineRun_diag _ dr rfl]
  rfl

/-- Where the sequencer stands after `n` double-rounds (R33, R142). -/
def eseqAfter (n : Nat) : Eseq := if h : n < 10 then .round ⟨n, h⟩ .col noLanes else .final

/-- `n` double-rounds of the engine (R133, R134). -/
theorem engineRun_doubleRounds (n : Nat) (hn : n ≤ 10) (s : State) (h : s.eseq = .round 0 .col noLanes) :
    engineRun (List.replicate (2 * n) phaseActs).flatten s
      = { s with x := doubleRounds n s.x, eseq := eseqAfter n } := by
  induction n with
  | zero => simp [engineRun, eseqAfter, doubleRounds, ← h]
  | succ n ih =>
    have hlt : n < 10 := by omega
    have e : (List.replicate (2 * (n + 1)) phaseActs).flatten
        = (List.replicate (2 * n) phaseActs).flatten ++ (phaseActs ++ phaseActs) := by
      rw [show 2 * (n + 1) = 2 * n + 2 by ring, ← List.replicate_append_replicate, List.flatten_append]
      simp [List.replicate]
    rw [e, engineRun_append, ih (by omega), engineRun_double _ ⟨n, hlt⟩ (by simp [eseqAfter, hlt])]
    by_cases h9 : n < 9
    · simp [doubleRounds, doubleRound, afterBarrier, eseqAfter, h9, show n + 1 < 10 by omega]
    · simp [doubleRounds, doubleRound, afterBarrier, eseqAfter, h9, show ¬ n + 1 < 10 by omega]

/-- What KSBLOCK does (R160): everything it can do, said once. -/
theorem ksBlock_eq (c : Word) (s : State) :
    ksBlock c s = { s with
      bc := c
      x := perm (inputWords s.key c s.nonce)
      z := block (inputWords s.key c s.nonce)
      ks := ksBytes (inputWords s.key c s.nonce)
      eseq := .idle } := by
  have h := engineRun_doubleRounds 10 (by decide) (engineStart (writeCounter c s)) rfl
  rw [ksBlock, blockActs, engineRun_append, engineRun_append]
  rw [show engineRun [EngineAct.start] (writeCounter c s) = engineStart (writeCounter c s) from rfl, h]
  simp only [engineRun, List.foldl_cons, List.foldl_nil, engineDo, engineFadd, engineSer, engineTake, engineStart,
    writeCounter, sWords, perm, block, ksBytes]

end Sys2Proof.Machine
end

