-- ==== Sys2Proof/Laws/PerInstr.lean ====
section
/-! SUPPORT. Statements about every instruction, one lemma per constructor. Family `EncodeShape`: the encoding of a
well-formed instruction stands in its own space and has the length that its format gives (R72 to R76, R89). -/

namespace Sys2Proof.Laws.EncodeShape

open Sys2Proof.Safety

/-- A frame is not empty and has the length its opcode's format and its header give; an entry is a word of QRTAB. -/
def CodeShape : Code → Prop
  | .frame f => f ≠ [] ∧ legalLength f = true
  | .entry w => w ∈ qrtab.toList

/-- The encoding of a well-formed instruction has its format's shape. -/
def Statement (i : Instr) : Prop := i.wf = true → CodeShape (encode i)

/-- The legal length of a frame of format K (R74). -/
theorem legalLength_formatK {f : Frame} (hb : byteAt f 0 = 0x01) (h : f.length = 7 + (fieldKlen f + fieldNlen f)) :
    legalLength f = true := by
  simp [legalLength, headerLength, declaredPayload, hb, h]

/-- The legal length of a frame of format D (R75). -/
theorem legalLength_formatD {f : Frame} (hb : byteAt f 0 = 0x03 ∨ byteAt f 0 = 0x05)
    (h : f.length = 9 + fieldLen64 f 1) : legalLength f = true := by
  rcases hb with hb | hb <;> simp [legalLength, headerLength, declaredPayload, hb, h]

/-- The legal length of a frame of format CD (R76). -/
theorem legalLength_formatCD {f : Frame} (hb : byteAt f 0 = 0x04) (h : f.length = 13 + fieldLen64 f 5) :
    legalLength f = true := by
  simp [legalLength, headerLength, declaredPayload, hb, h]

theorem formatD (opc : Byte) (data : List Byte) (hopc : opc = 0x03 ∨ opc = 0x05) (h : data.length < 2 ^ 64) :
    legalLength (encodeD opc data) = true :=
  legalLength_formatD (f := encodeD opc data) hopc
    (by rw [fieldLen64_formatD opc data h]; simp [encodeD]; omega)

theorem init (ctr : Word) (key nonce : List Byte) : Statement (.init ctr key nonce) := by
  intro h
  simp only [Instr.wf, fitsLen8, Bool.and_eq_true, decide_eq_true_eq] at h
  refine ⟨by simp [encodeK], legalLength_formatK (f := encodeK 0x01 ctr key nonce) rfl ?_⟩
  rw [fieldKlen_formatK _ ctr key nonce h.1, fieldNlen_formatK _ ctr key nonce h.2]
  simp [encodeK, bytes32]; omega

theorem ksb (ctr : Word) : Statement (.ksb ctr) := fun _ => ⟨by simp, rfl⟩

theorem enc (data : List Byte) : Statement (.enc data) := fun h =>
  ⟨by simp [encodeD], formatD 0x03 data (.inl rfl) (by simpa [Instr.wf, fitsLen64] using h)⟩

theorem encc (ctr : Word) (data : List Byte) : Statement (.encc ctr data) := by
  intro h
  simp only [Instr.wf, fitsLen64, decide_eq_true_eq] at h
  refine ⟨by simp [encodeCD], legalLength_formatCD (f := encodeCD 0x04 ctr data) rfl ?_⟩
  rw [fieldLen64_formatCD 0x04 ctr data h]
  simp [encodeCD, bytes32]; omega

theorem encs (data : List Byte) : Statement (.encs data) := fun h =>
  ⟨by simp [encodeD], formatD 0x05 data (.inr rfl) (by simpa [Instr.wf, fitsLen64] using h)⟩

theorem next : Statement .next := fun _ => ⟨by simp, rfl⟩

theorem qc0 : Statement .qc0 := fun _ => by simp [CodeShape, encode, qrtab]
theorem qc1 : Statement .qc1 := fun _ => by simp [CodeShape, encode, qrtab]
theorem qc2 : Statement .qc2 := fun _ => by simp [CodeShape, encode, qrtab]
theorem qc3 : Statement .qc3 := fun _ => by simp [CodeShape, encode, qrtab]
theorem qd0 : Statement .qd0 := fun _ => by simp [CodeShape, encode, qrtab]
theorem qd1 : Statement .qd1 := fun _ => by simp [CodeShape, encode, qrtab]
theorem qd2 : Statement .qd2 := fun _ => by simp [CodeShape, encode, qrtab]
theorem qd3 : Statement .qd3 := fun _ => by simp [CodeShape, encode, qrtab]

end Sys2Proof.Laws.EncodeShape
end

