-- ==== Sys2Proof/Laws/Stream.lean ====
section
/-! SUPPORT. What the driver's loops do (R164, R174): their output as a function of key, nonce and counter, the registers
they write, and the registers they leave. Lemmas on chunks (R57) come first. -/

namespace Sys2Proof.Machine

/-! ### Chunks (R57) -/

/-- The chunks of a payload cover it: chunk i ends where chunk i + 1 begins. -/
theorem numBlocks_spec (len : Nat) : 64 * numBlocks len < len + 64 ∧ len ≤ 64 * numBlocks len := by
  unfold numBlocks; omega

@[simp] theorem numBlocks_zero : numBlocks 0 = 0 := rfl

/-- The length of a chunk. -/
theorem chunk_length (data : List Byte) (i : Nat) : (chunk data i).length = min 64 (data.length - 64 * i) := by
  simp [chunk, memRead]

/-- A chunk is the next 64 bytes, or what is left of the data. -/
theorem chunk_eq_take (data : List Byte) (i : Nat) : chunk data i = (data.drop (64 * i)).take 64 := by
  rw [chunk, memRead, List.take_eq_take_iff]; simp

/-- The keystream block has 64 bytes (R32). -/
@[simp] theorem keystreamBlock_length (key : Vector Word 8) (nonce : Vector Word 3) (c : Word) :
    (keystreamBlock key nonce c).length = 64 := by simp [keystreamBlock]

/-- The result of a chunk has the chunk's length (R162). -/
theorem xorChunk_length (c ks : List Byte) (h : c.length ≤ ks.length) : (xorChunk c ks).length = c.length := by
  simp [xorChunk, h]

/-! ### The keystream and its combination (R164) -/

/-- The output of the first `n` turns of the loop from counter `base` on. -/
def xorBlocks (key : Vector Word 8) (nonce : Vector Word 3) (base : Nat) (data : List Byte) (n : Nat) : List Byte :=
  (List.range n).flatMap fun i => xorChunk (chunk data i) (keystreamBlock key nonce (BitVec.ofNat 32 (base + i)))

theorem xorStream_eq (key : Vector Word 8) (nonce : Vector Word 3) (base : Nat) (data : List Byte) :
    xorStream key nonce base data = xorBlocks key nonce base data (numBlocks data.length) := rfl

@[simp] theorem xorBlocks_zero (key : Vector Word 8) (nonce : Vector Word 3) (base : Nat) (data : List Byte) :
    xorBlocks key nonce base data 0 = [] := rfl

/-- One more turn appends one more chunk. -/
theorem xorBlocks_succ (key : Vector Word 8) (nonce : Vector Word 3) (base : Nat) (data : List Byte) (n : Nat) :
    xorBlocks key nonce base data (n + 1) = xorBlocks key nonce base data n ++
      xorChunk (chunk data n) (keystreamBlock key nonce (BitVec.ofNat 32 (base + n))) := by
  simp [xorBlocks, List.range_succ]

/-- The first `n` turns put out as many bytes as they take in. -/
theorem xorBlocks_length (key : Vector Word 8) (nonce : Vector Word 3) (base : Nat) (data : List Byte) (n : Nat) :
    (xorBlocks key nonce base data n).length = min (64 * n) data.length := by
  induction n with
  | zero => simp
  | succ n ih =>
    rw [xorBlocks_succ, List.length_append, ih, xorChunk_length, chunk_length]
    · omega
    · rw [chunk_length, keystreamBlock_length]; omega

/-- The output has the length of the data (R88, R164). -/
@[simp] theorem xorStream_length (key : Vector Word 8) (nonce : Vector Word 3) (base : Nat) (data : List Byte) :
    (xorStream key nonce base data).length = data.length := by
  have := numBlocks_spec data.length
  rw [xorStream_eq, xorBlocks_length]; omega

/-! ### The loops (R164, R174) -/

/-- What a data command's loop leaves as it was: key, nonce, IC, KEYED and the channels. -/
structure LoopFrame (s t : State) : Prop where
  key : t.key = s.key
  nonce : t.nonce = s.nonce
  ic : t.ic = s.ic
  keyed : t.keyed = s.keyed
  cmdIn : t.cmdIn = s.cmdIn
  rspOut : t.rspOut = s.rspOut

/-- What the loops leave in the registers they write, after `n` turns from counter `base` on. -/
structure LoopRegisters (s t : State) (base : Nat) (n : Nat) : Prop where
  bc : t.bc = if n = 0 then s.bc else BitVec.ofNat 32 (base + (n - 1))
  eseq : t.eseq = if n = 0 then s.eseq else .idle

/-- The state after `n` turns of STREAMXOR, and the output so far. -/
theorem streamTurns_spec (base : Word) (data : List Byte) (s : State) (blocks n : Nat) :
    let p := (List.range n).foldl (streamTurn base.toNat data) (beginData base blocks s, [])
    LoopFrame s p.1 ∧ LoopRegisters s p.1 base.toNat n ∧ p.1.ctr = s.ctr ∧
      p.2 = xorBlocks s.key s.nonce base.toNat data n := by
  induction n with
  | zero => exact ⟨⟨rfl, rfl, rfl, rfl, rfl, rfl⟩, ⟨rfl, rfl⟩, rfl, rfl⟩
  | succ n ih =>
    obtain ⟨hf, -, hc, ho⟩ := ih
    simp only [List.range_succ, List.foldl_append, List.foldl_cons, List.foldl_nil, streamTurn, ksBlock_eq,
      beginChunk_key, beginChunk_nonce]
    refine ⟨⟨hf.key, hf.nonce, hf.ic, hf.keyed, hf.cmdIn, hf.rspOut⟩, ⟨by simp, by simp⟩, hc, ?_⟩
    rw [ho, hf.key, hf.nonce, xorBlocks_succ]
    rfl

/-- What STREAMXOR does (R164): everything it can do, said once. -/
theorem streamXor_spec (base : Word) (data : List Byte) (s : State) :
    LoopFrame s (streamXor base data s).1 ∧
      LoopRegisters s (streamXor base data s).1 base.toNat (numBlocks data.length) ∧
      (streamXor base data s).1.ctr = s.ctr ∧
      (streamXor base data s).2 = xorStream s.key s.nonce base.toNat data :=
  streamTurns_spec base data s _ _

/-- The low word of the cursor after `n` blocks. -/
theorem ctrLow_add (c : BitVec 33) (n : Nat) :
    (c + BitVec.ofNat 33 n).setWidth 32 = BitVec.ofNat 32 ((c.setWidth 32).toNat + n) := by
  apply BitVec.eq_of_toNat_eq
  simp only [BitVec.toNat_setWidth, BitVec.toNat_add, BitVec.toNat_ofNat]
  omega

/-- The state after `n` turns of the continuous loop, and the output so far. -/
theorem cursorTurns_spec (data : List Byte) (s : State) (blocks n : Nat) :
    let p := (List.range n).foldl (cursorTurn data) (beginData (ctrLow s) blocks s, [])
    LoopFrame s p.1 ∧ LoopRegisters s p.1 (ctrLow s).toNat n ∧ p.1.ctr = s.ctr + BitVec.ofNat 33 n ∧
      p.2 = xorBlocks s.key s.nonce (ctrLow s).toNat data n := by
  induction n with
  | zero => exact ⟨⟨rfl, rfl, rfl, rfl, rfl, rfl⟩, ⟨rfl, rfl⟩, by simp, rfl⟩
  | succ n ih =>
    obtain ⟨hf, -, hc, ho⟩ := ih
    simp only [List.range_succ, List.foldl_append, List.foldl_cons, List.foldl_nil, cursorTurn, ksBlock_eq,
      beginChunk_key, beginChunk_nonce, advanceCursor]
    have hlow : ctrLow ((List.range n).foldl (cursorTurn data) (beginData (ctrLow s) blocks s, [])).1
        = BitVec.ofNat 32 ((ctrLow s).toNat + n) := by
      rw [ctrLow, hc, ctrLow_add]; rfl
    rw [hlow]
    refine ⟨⟨hf.key, hf.nonce, hf.ic, hf.keyed, hf.cmdIn, hf.rspOut⟩, ⟨by simp, by simp⟩, ?_, ?_⟩
    · show _ + 1 = _
      rw [beginChunk_ctr, hc, BitVec.add_assoc, BitVec.ofNat_add]; rfl
    · rw [ho, hf.key, hf.nonce, xorBlocks_succ]
      rfl

/-- What the loop of ENCS does (R174): everything it can do, said once. -/
theorem cursorXor_spec (data : List Byte) (s : State) :
    LoopFrame s (cursorXor data s).1 ∧
      LoopRegisters s (cursorXor data s).1 (ctrLow s).toNat (numBlocks data.length) ∧
      (cursorXor data s).1.ctr = s.ctr + BitVec.ofNat 33 (numBlocks data.length) ∧
      (cursorXor data s).2 = xorStream s.key s.nonce (ctrLow s).toNat data :=
  cursorTurns_spec data s _ _

end Sys2Proof.Machine
end

