-- ==== Sys2Proof/Laws/Step.lean ====
section
/-! SUPPORT. What a step can do, said once: it waits, it answers a frame, or it takes an enabled step of the engine. -/

namespace Sys2Proof.Laws

open Sys2Proof.Machine

/-- The micro-operation of a phase and a lane (R89, R141). -/
def laneInstr (ph : Phase) (l : Fin 4) : Instr :=
  match ph, l with
  | .col, 0 => .qc0
  | .col, 1 => .qc1
  | .col, 2 => .qc2
  | .col, 3 => .qc3
  | .diag, 0 => .qd0
  | .diag, 1 => .qd1
  | .diag, 2 => .qd2
  | .diag, 3 => .qd3

/-- The word a lane reads from QRTAB is an entry of format Q, so the fault `notATableEntry` never happens. -/
theorem fetchLane_decodes (ph : Phase) (l : Fin 4) :
    decodeEntry qrtab[tableIndex ph l] = some (laneInstr ph l) := by
  cases ph <;> fin_cases l <;> decide

/-- The meaning of a lane's micro-operation is QRAPPLY with the lane's entry (R115 to R122). -/
theorem exec_laneInstr (ph : Phase) (l : Fin 4) (s : State) :
    exec (laneInstr ph l) s = .next (applyEntry (tableIndex ph l) s) := by
  cases ph <;> fin_cases l <;> rfl

/-- A lane step of the machine is E-LANE (R141). -/
theorem stepLane_eq (l : Fin 4) (s : State) (dr : Fin 10) (ph : Phase) (done : Lanes) (h : s.eseq = .round dr ph done) :
    stepLane l qrtab[tableIndex ph l] s = .next (engineLane l s) := by
  simp only [stepLane, fetchLane_decodes, exec_laneInstr, finishLane, engineLane, h]

/-- The lane served next has not finished. -/
theorem nextLane_some {done : Lanes} {l : Fin 4} (h : nextLane done = some l) : done[l] = false := by
  have := List.find?_some h
  simpa using this

/-- No lane is served next only when all have finished. -/
theorem nextLane_none {done : Lanes} (h : nextLane done = none) : done = allLanes := by
  simp only [nextLane, Config.laneOrder, List.find?_eq_none, List.mem_cons, List.not_mem_nil, or_false,
    forall_eq_or_imp, forall_eq, Bool.not_eq_true, Bool.not_eq_false'] at h
  ext i hi
  interval_cases i <;> simp_all [allLanes]

/-- Everything a step can do. -/
theorem step_cases (s : State) :
    (s.eseq = .idle ∧ s.cmdIn = [] ∧ step s = .next s) ∨
    (∃ f rest, s.eseq = .idle ∧ s.cmdIn = f :: rest ∧ step s = stepFrame f { s with cmdIn := rest }) ∨
    (∃ a, a ≠ .start ∧ a.enabled s.eseq = true ∧ step s = .next (engineDo a s)) := by
  cases he : s.eseq with
  | idle =>
    cases hc : s.cmdIn with
    | nil => exact .inl ⟨rfl, rfl, by simp [step, fetch, he, hc]⟩
    | cons f rest => exact .inr (.inl ⟨f, rest, rfl, rfl, by simp [step, fetch, he, hc, takeFrame]⟩)
  | round dr ph done =>
    refine .inr (.inr ?_)
    cases hl : nextLane done with
    | some l =>
      refine ⟨.lane l, by simp, by simp [EngineAct.enabled, nextLane_some hl], ?_⟩
      simp only [step, fetch, he, fetchPhase, hl, stepLane_eq l s dr ph done he, engineDo]
    | none =>
      refine ⟨.barrier, by simp, by simp [EngineAct.enabled, nextLane_none hl], ?_⟩
      simp only [step, fetch, he, fetchPhase, hl]
  | final => exact .inr (.inr ⟨.fadd, by simp, rfl, by simp only [step, fetch, he]⟩)
  | serial => exact .inr (.inr ⟨.ser, by simp, rfl, by simp only [step, fetch, he]⟩)
  | done => exact .inr (.inr ⟨.take, by simp, rfl, by simp only [step, fetch, he]⟩)

/-- What the answer to a frame can be: the meaning of the command it decodes to, or a refusal (R165). -/
theorem stepFrame_cases (f : Frame) (s : State) :
    (∃ i, decodeFrame f = .instr i ∧ stepFrame f s = exec i s) ∨
    (decodeFrame f = .illegalCommand ∧ stepFrame f s = .next (raise .illegalCommand (isInitFrame f) s)) ∨
    (decodeFrame f = .badFrame ∧ stepFrame f s = .next (raise .badFrame (isInitFrame f) s)) := by
  unfold stepFrame
  cases h : decodeFrame f with
  | instr i => exact .inl ⟨i, rfl, rfl⟩
  | illegalCommand => exact .inr (.inl ⟨rfl, rfl⟩)
  | badFrame => exact .inr (.inr ⟨rfl, rfl⟩)

/-- A run of any machine peels off its first step. -/
theorem run_succ_of_step (M : Host.Core) {s t : M.State} (k : Nat) (h : M.step s = .next t) :
    M.run (k + 1) s = M.run k t := by
  simp only [Host.Core.run, h]

/-- One response was emitted, and the core is idle with the frames that still wait as they were. -/
def AnswersOne (s t : State) : Prop :=
  t.eseq = .idle ∧ t.cmdIn = s.cmdIn ∧ ∃ r, t.rspOut = s.rspOut ++ [r]

/-- A refusal answers (R209). -/
theorem raise_answersOne (e : ErrorCode) (b : Bool) (s : State) : AnswersOne s (raise e b s) := ⟨rfl, rfl, _, rfl⟩

/-- An OK response after a loop of a data command answers (R88, R164, R174). -/
theorem respond_answersOne {s t : State} {base n : Nat} (r : Response) (hf : LoopFrame s t)
    (hr : LoopRegisters s t base n) (h : s.eseq = .idle) : AnswersOne s (respond r t) :=
  ⟨by simp [respond, hr.eseq, h], by simp [respond, hf.cmdIn], r.frame, by simp [respond, hf.rspOut]⟩

/-- What a frame decodes to is one of the six commands, never an entry of QRTAB (R72 to R76, R89), and the meaning of a
command on an idle core answers (R60, R215). -/
theorem exec_answersOne {f : Frame} {i : Instr} (hd : decodeFrame f = .instr i) (s : State) (h : s.eseq = .idle) :
    ∃ t, exec i s = .next t ∧ AnswersOne s t := by
  cases i with
  | init ctr key nonce =>
    simp only [exec, execInit]
    split_ifs <;> first | exact ⟨_, rfl, raise_answersOne ..⟩ | exact ⟨_, rfl, h, rfl, _, rfl⟩
  | ksb ctr =>
    simp only [exec, execKsb, ksBlock_eq]
    split_ifs <;> first | exact ⟨_, rfl, raise_answersOne ..⟩ | exact ⟨_, rfl, rfl, rfl, _, rfl⟩
  | enc data =>
    obtain ⟨hf, hr, -, -⟩ := streamXor_spec s.ic data s
    simp only [exec, execEnc]
    split_ifs <;> first | exact ⟨_, rfl, raise_answersOne ..⟩ | exact ⟨_, rfl, respond_answersOne _ hf hr h⟩
  | encc ctr data =>
    obtain ⟨hf, hr, -, -⟩ := streamXor_spec ctr data s
    simp only [exec, execEncc]
    split_ifs <;> first | exact ⟨_, rfl, raise_answersOne ..⟩ | exact ⟨_, rfl, respond_answersOne _ hf hr h⟩
  | encs data =>
    obtain ⟨hf, hr, -, -⟩ := cursorXor_spec data s
    simp only [exec, execEncs]
    split_ifs <;> first | exact ⟨_, rfl, raise_answersOne ..⟩ | exact ⟨_, rfl, respond_answersOne _ hf hr h⟩
  | next =>
    simp only [exec, execNext, ksBlock_eq]
    split_ifs <;> first | exact ⟨_, rfl, raise_answersOne ..⟩ | exact ⟨_, rfl, rfl, rfl, _, rfl⟩
  | qc0 | qc1 | qc2 | qc3 | qd0 | qd1 | qd2 | qd3 =>
    rcases decodeFrame_instr hd with h | h | h | h | h | h <;> simp at h

/-- The step of an idle core on a frame answers that frame (R60, R215, R236). -/
theorem stepFrame_answersOne (f : Frame) (s : State) (h : s.eseq = .idle) :
    ∃ t, stepFrame f s = .next t ∧ AnswersOne s t := by
  rcases stepFrame_cases f s with ⟨i, hd, he⟩ | ⟨-, he⟩ | ⟨-, he⟩
  · exact he ▸ exec_answersOne hd s h
  · exact ⟨_, he, raise_answersOne ..⟩
  · exact ⟨_, he, raise_answersOne ..⟩

end Sys2Proof.Laws
end

