-- ==== Sys2Proof/Tests/Slice0.lean ====
section
/-! SUPPORT. The model's own tests. Expected values are the spec's: the worked encodings of R93, the examples of the rules,
and the vectors V1 to V64 of 95_test_vectors.md; each test names its source. The last part shows, for each statement that
has hypotheses, a concrete case that meets them all. -/

namespace Sys2Proof.Tests

-- One test at a time: side by side, each would hold a thread and its stack until its turn in the kernel.
set_option Elab.async false

open Sys2Proof.Machine Sys2Proof.Safety

/-! ### Helpers -/

/-- Key bytes 00 .. 1f. -/
def testKey : List Byte := (List.range 32).map (BitVec.ofNat 8)

/-- Nonce bytes 00 00 00 09 00 00 00 4a 00 00 00 00. -/
def testNonce : List Byte := [0x00, 0x00, 0x00, 0x09, 0x00, 0x00, 0x00, 0x4a, 0x00, 0x00, 0x00, 0x00]

/-- V20: the words of S after INIT with that key, that nonce and counter 1. -/
def v20 : Block :=
  #v[0x61707865, 0x3320646e, 0x79622d32, 0x6b206574, 0x03020100, 0x07060504, 0x0b0a0908, 0x0f0e0d0c,
   0x13121110, 0x17161514, 0x1b1a1918, 0x1f1e1d1c, 0x00000001, 0x09000000, 0x4a000000, 0x00000000]

/-- V21: X after the first column round. -/
def v21 : Block :=
  #v[0xabbaa25c, 0x1efa51ea, 0x7354fbdf, 0x83d2dc69, 0x3a465196, 0x1c7e64f6, 0xb12fb628, 0xf05b6976,
   0x6b3ca454, 0x08eb14b1, 0xbf8a9ac9, 0xe444df3b, 0xdec62ed2, 0x8862cc77, 0x6e35b345, 0x52a647f1]

/-- V22: X after the first double-round. -/
def v22 : Block :=
  #v[0xcd52e917, 0x85ab03b4, 0xb3457395, 0xf96de7dd, 0xc4b7cd22, 0x5c2e187a, 0xc95eb461, 0x316c801a,
   0x7bf7d740, 0x7eddd644, 0xf1a1bdf5, 0x761246ca, 0x6b0d58a3, 0x6798471a, 0xd737f167, 0xf173888d]

/-- A core keyed with the test key and nonce, with this IC and this cursor. -/
def keyedCore (ic : Word) (cursor : BitVec 33) : State :=
  { loadInstance ic testKey testNonce State.reset with ctr := cursor }

/-- A core in the first phase of a block, with this X. -/
def coreWithX (x : Block) : State := { State.reset with x := x, eseq := .round 0 .col noLanes }

/-- The next state of an outcome. -/
def nextOf : Host.Outcome State Fault Refusal → Option State
  | .next s => some s
  | .fault _ => none
  | .refused _ => none

/-- The response an outcome emitted last. -/
def answerOf (o : Host.Outcome State Fault Refusal) : Option Frame := (nextOf o).bind fun s => s.rspOut.getLast?

/-- A frame waits at an idle core. -/
def withFrame (f : Frame) (s : State) : State := send f s

/-! ### Well-formedness: each check refuses an ill-formed term -/

theorem test_wf_refuses_long_key : (Instr.init 0 (List.replicate 256 0) []).wf = false := by decide +kernel
theorem test_wf_refuses_long_nonce : (Instr.init 0 [] (List.replicate 256 0)).wf = false := by decide +kernel
theorem test_wf_refuses_long_enc : (Instr.enc (List.replicate (2 ^ 64) 0)).wf = false := by
  simp only [Instr.wf, fitsLen64, List.length_replicate, decide_eq_false_iff_not, lt_self_iff_false, not_false_eq_true]
theorem test_wf_refuses_long_encc : (Instr.encc 0 (List.replicate (2 ^ 64) 0)).wf = false := by
  simp only [Instr.wf, fitsLen64, List.length_replicate, decide_eq_false_iff_not, lt_self_iff_false, not_false_eq_true]
theorem test_wf_refuses_long_encs : (Instr.encs (List.replicate (2 ^ 64) 0)).wf = false := by
  simp only [Instr.wf, fitsLen64, List.length_replicate, decide_eq_false_iff_not, lt_self_iff_false, not_false_eq_true]
theorem test_wf_accepts_wrong_key_length : (Instr.init 0 [] []).wf = true := by decide

/-! ### Decoding: words written out from the encodings (R93, V37 to V41k) -/

theorem test_decode_init : decodeFrame ([0x01, 0x01, 0x00, 0x00, 0x00, 0x20, 0x0c] ++ testKey ++ testNonce)
    = .instr (.init 1 testKey testNonce) := by decide +kernel
theorem test_decode_init_empty : decodeFrame [0x01, 0, 0, 0, 0, 0, 0] = .instr (.init 0 [] []) := by decide +kernel
theorem test_decode_ksb : decodeFrame [0x02, 0x01, 0x00, 0x00, 0x00] = .instr (.ksb 1) := by decide +kernel
theorem test_decode_ksb_little_endian : decodeFrame [0x02, 0xfe, 0xff, 0xff, 0xff] = .instr (.ksb 0xFFFFFFFE) := by
  decide +kernel
theorem test_decode_enc : decodeFrame [0x03, 0x05, 0, 0, 0, 0, 0, 0, 0, 0x68, 0x65, 0x6c, 0x6c, 0x6f]
    = .instr (.enc [0x68, 0x65, 0x6c, 0x6c, 0x6f]) := by decide +kernel
theorem test_decode_encc : decodeFrame [0x04, 0xff, 0xff, 0xff, 0xff, 0x01, 0, 0, 0, 0, 0, 0, 0, 0x00]
    = .instr (.encc 0xFFFFFFFF [0x00]) := by decide +kernel
theorem test_decode_encs : decodeFrame [0x05, 0x05, 0, 0, 0, 0, 0, 0, 0, 0x68, 0x65, 0x6c, 0x6c, 0x6f]
    = .instr (.encs [0x68, 0x65, 0x6c, 0x6c, 0x6f]) := by decide +kernel
theorem test_decode_next : decodeFrame [0x06] = .instr .next := by decide +kernel
theorem test_decode_bad_frames :
    [[], [0x06, 0x00], [0x02, 0x01, 0x00, 0x00], [0x03, 0x02, 0, 0, 0, 0, 0, 0, 0, 0xaa],
      [0x03, 0x01, 0, 0, 0, 0, 0, 0, 0, 0xaa, 0xbb], [0x01, 0x00],
      [0x03, 0xff, 0xff, 0xff, 0xff, 0xff, 0xff, 0xff, 0xff]].all
      (fun f => decide (decodeFrame f = .badFrame)) = true := by decide +kernel
theorem test_decode_illegal_commands :
    [[0x00], [0x07, 0x01, 0x02], [0xff]].all (fun f => decide (decodeFrame f = .illegalCommand)) = true := by
  decide +kernel
theorem test_decode_entries :
    [0x048C, 0x159D, 0x26AE, 0x37BF, 0x05AF, 0x16BC, 0x278D, 0x349E].map decodeEntry
      = [some .qc0, some .qc1, some .qc2, some .qc3, some .qd0, some .qd1, some .qd2, some .qd3] := by decide +kernel
theorem test_decode_no_entry : decodeEntry 0x048D = none := by decide
theorem test_encode_encc : encode (.encc 0xFFFFFFFF [0x00])
    = .frame [0x04, 0xff, 0xff, 0xff, 0xff, 0x01, 0, 0, 0, 0, 0, 0, 0, 0x00] := by decide +kernel

theorem test_assemble_dec_hello : encode (assemble (.dec (.str "hello")))
    = .frame [0x03, 0x05, 0, 0, 0, 0, 0, 0, 0, 0x68, 0x65, 0x6c, 0x6c, 0x6f] := by decide +kernel
theorem test_assemble_kstr : assemble (.kstr 3 2) = .encc 3 [0, 0] := by decide +kernel

/-! ### The opcode table's words, decoded and run as the first instruction after reset -/

theorem test_table_words_decode :
    [1, 2, 3, 4, 5, 6].map (decodeTableWord 8)
      = [some (.init 0 [] []), some (.ksb 0), some (.enc []), some (.encc 0 []), some (.encs []), some .next] ∧
    [0x048C, 0x159D, 0x26AE, 0x37BF, 0x05AF, 0x16BC, 0x278D, 0x349E].map (decodeTableWord 16)
      = [some .qc0, some .qc1, some .qc2, some .qc3, some .qd0, some .qd1, some .qd2, some .qd3] := by decide +kernel
theorem test_table_commands_run :
    [1, 2, 3, 4, 5, 6].map (fun w => answerOf (step (State.reset.withFetchWord 8 w)))
      = [some [0x01, 0, 0, 0, 0, 0, 0, 0, 0], some [0x04, 0, 0, 0, 0, 0, 0, 0, 0], some [0x04, 0, 0, 0, 0, 0, 0, 0, 0],
         some [0x04, 0, 0, 0, 0, 0, 0, 0, 0], some [0x04, 0, 0, 0, 0, 0, 0, 0, 0],
         some [0x04, 0, 0, 0, 0, 0, 0, 0, 0]] := by decide +kernel
theorem test_table_entries_run :
    [0x048C, 0x159D, 0x26AE, 0x37BF].map (fun w => (nextOf (step (State.reset.withFetchWord 16 w))).map (·.eseq))
      = [some (.round 0 .col #v[true, false, false, false]), some (.round 0 .col #v[true, true, false, false]),
         some (.round 0 .col #v[true, true, true, false]), some (.round 0 .col allLanes)] ∧
    [0x05AF, 0x16BC, 0x278D, 0x349E].map (fun w => (nextOf (step (State.reset.withFetchWord 16 w))).map (·.eseq))
      = [some (.round 0 .diag #v[true, false, false, false]), some (.round 0 .diag #v[true, true, false, false]),
         some (.round 0 .diag #v[true, true, true, false]), some (.round 0 .diag allLanes)] := by decide +kernel

/-! ### The datapath (V1 to V22) -/

theorem test_constants : constants = #v[le32 0x65 0x78 0x70 0x61, le32 0x6e 0x64 0x20 0x33, le32 0x32 0x2d 0x62 0x79,
    le32 0x74 0x65 0x20 0x6b] := by decide +kernel
theorem test_add32 : add32 0x11111111 0x01020304 = 0x12131415 ∧ add32 0xffffffff 1 = 0 ∧
    add32 0x80000000 0x80000000 = 0 ∧ add32 0xffffffff 0xffffffff = 0xfffffffe := by decide
theorem test_xor32 : xor32 0x01234567 0x12131415 = 0x13305172 := by decide
theorem test_rotl32 : [16, 12, 8, 7].map (rotl32 0x80000001) = [0x00018000, 0x00001800, 0x00000180, 0x000000c0] ∧
    [16, 12, 8, 7].map (rotl32 0x12345678) = [0x56781234, 0x45678123, 0x34567812, 0x1a2b3c09] := by decide +kernel
theorem test_sub32_rotr32 : sub32 0 1 = 0xffffffff ∧ rotr32 0xcb1cf8ce 7 = 0x9d9639f1 := by decide +kernel
theorem test_arx : arx 0x11111111 0x01020304 0x01234567 16 = (0x12131415, 0x51721330) := by decide +kernel
theorem test_qr : qr ⟨0x11111111, 0x01020304, 0x9b8d6f43, 0x01234567⟩
    = ⟨0xea2a92f4, 0xcb1cf8ce, 0x4581472e, 0x5881c4bb⟩ := by decide +kernel
theorem test_qr_wraps : qr ⟨0xffffffff, 0x00000001, 0x80000000, 0x80000000⟩
    = ⟨0x08001800, 0x4c4c0444, 0x80988008, 0x00980008⟩ := by decide +kernel
theorem test_qr_operand_b : qr ⟨0, 1, 0, 0⟩ = ⟨0x10001001, 0x88888808, 0x01110110, 0x01100110⟩ := by decide +kernel
theorem test_col_round : colRound v20 = v21 := by decide +kernel
theorem test_diag_round : diagRound v21 = v22 := by decide +kernel

theorem test_qc0 : (nextOf (exec .qc0 (coreWithX v20))).map (fun s => [s.x[0], s.x[4], s.x[8], s.x[12], s.x[1]])
    = some [0xabbaa25c, 0x3a465196, 0x6b3ca454, 0xdec62ed2, 0x3320646e] := by decide +kernel
theorem test_qc1 : (nextOf (exec .qc1 (coreWithX v20))).map (fun s => [s.x[1], s.x[5], s.x[9], s.x[13], s.x[0]])
    = some [0x1efa51ea, 0x1c7e64f6, 0x08eb14b1, 0x8862cc77, 0x61707865] := by decide +kernel
theorem test_qc2 : (nextOf (exec .qc2 (coreWithX v20))).map (fun s => [s.x[2], s.x[6], s.x[10], s.x[14], s.x[0]])
    = some [0x7354fbdf, 0xb12fb628, 0xbf8a9ac9, 0x6e35b345, 0x61707865] := by decide +kernel
theorem test_qc3 : (nextOf (exec .qc3 (coreWithX v20))).map (fun s => [s.x[3], s.x[7], s.x[11], s.x[15], s.x[0]])
    = some [0x83d2dc69, 0xf05b6976, 0xe444df3b, 0x52a647f1, 0x61707865] := by decide +kernel
theorem test_qd0 : (nextOf (exec .qd0 (coreWithX v21))).map (fun s => [s.x[0], s.x[5], s.x[10], s.x[15], s.x[1]])
    = some [0xcd52e917, 0x5c2e187a, 0xf1a1bdf5, 0xf173888d, 0x1efa51ea] := by decide +kernel
theorem test_qd1 : (nextOf (exec .qd1 (coreWithX v21))).map (fun s => [s.x[1], s.x[6], s.x[11], s.x[12], s.x[0]])
    = some [0x85ab03b4, 0xc95eb461, 0x761246ca, 0x6b0d58a3, 0xabbaa25c] := by decide +kernel
theorem test_qd2 : (nextOf (exec .qd2 (coreWithX v21))).map (fun s => [s.x[2], s.x[7], s.x[8], s.x[13], s.x[0]])
    = some [0xb3457395, 0x316c801a, 0x7bf7d740, 0x6798471a, 0xabbaa25c] := by decide +kernel
theorem test_qd3 : (nextOf (exec .qd3 (coreWithX v21))).map (fun s => [s.x[3], s.x[4], s.x[9], s.x[14], s.x[0]])
    = some [0xf96de7dd, 0xc4b7cd22, 0x7eddd644, 0xd737f167, 0xabbaa25c] := by decide +kernel

/-! ### The commands (V27, V45 to V48, V51 to V64) -/

theorem test_init_loads_v20 : (nextOf (exec (.init 1 testKey testNonce) State.reset)).map
    (fun s => (sWords s, s.ctr, s.rspOut)) = some (v20, 1, [[0, 0, 0, 0, 0, 0, 0, 0, 0]]) := by decide +kernel
theorem test_init_key_error_first : (nextOf (exec (.init 1 (List.replicate 33 0) (List.replicate 11 0)) (keyedCore 1 1))).map
    (fun s => (s.keyed, s.rspOut)) = some (false, [[1, 0, 0, 0, 0, 0, 0, 0, 0]]) := by decide +kernel
theorem test_ksb_v27 : answerOf (exec (.ksb 1) (keyedCore 9 9)) = some ([0x00, 0x40, 0, 0, 0, 0, 0, 0, 0] ++
  [0x10, 0xf1, 0xe7, 0xe4, 0xd1, 0x3b, 0x59, 0x15, 0x50, 0x0f, 0xdd, 0x1f, 0xa3, 0x20, 0x71, 0xc4,
   0xc7, 0xd1, 0xf4, 0xc7, 0x33, 0xc0, 0x68, 0x03, 0x04, 0x22, 0xaa, 0x9a, 0xc3, 0xd4, 0x6c, 0x4e,
   0xd2, 0x82, 0x64, 0x46, 0x07, 0x9f, 0xaa, 0x09, 0x14, 0xc2, 0xd7, 0x05, 0xd9, 0x8b, 0x02, 0xa2,
   0xb5, 0x12, 0x9c, 0xd1, 0xde, 0x16, 0x4e, 0xb9, 0xcb, 0xd0, 0x83, 0xe8, 0xa2, 0x50, 0x3c, 0x4e]) := by decide +kernel
theorem test_enc_hello : answerOf (exec (.enc [0x68, 0x65, 0x6c, 0x6c, 0x6f]) (keyedCore 1 5))
    = some [0x00, 0x05, 0, 0, 0, 0, 0, 0, 0, 0x78, 0x94, 0x8b, 0x88, 0xbe] := by decide +kernel
theorem test_enc_overflow : (nextOf (exec (.enc (List.replicate 129 0)) (keyedCore 0xFFFFFFFE 0))).map
    (fun s => (s.keyed, s.rspOut)) = some (true, [[3, 0, 0, 0, 0, 0, 0, 0, 0]]) := by decide +kernel
theorem test_encc_hello : answerOf (exec (.encc 4 [0x01, 0xb5, 0xf3, 0x61, 0x5c]) (keyedCore 1 5))
    = some [0x00, 0x05, 0, 0, 0, 0, 0, 0, 0, 0x68, 0x65, 0x6c, 0x6c, 0x6f] := by decide +kernel
theorem test_encs_v46 : (nextOf (exec (.encs ((List.range 100).map (BitVec.ofNat 8))) (keyedCore 1 1))).map
    (fun s => (s.rspOut, s.ctr, s.bc, s.ic)) = some ([[0x00, 0x64, 0, 0, 0, 0, 0, 0, 0] ++
  [0x10, 0xf0, 0xe5, 0xe7, 0xd5, 0x3e, 0x5f, 0x12, 0x58, 0x06, 0xd7, 0x14, 0xaf, 0x2d, 0x7f, 0xcb,
   0xd7, 0xc0, 0xe6, 0xd4, 0x27, 0xd5, 0x7e, 0x14, 0x1c, 0x3b, 0xb0, 0x81, 0xdf, 0xc9, 0x72, 0x51,
   0xf2, 0xa3, 0x46, 0x65, 0x23, 0xba, 0x8c, 0x2e, 0x3c, 0xeb, 0xfd, 0x2e, 0xf5, 0xa6, 0x2c, 0x8d,
   0x85, 0x23, 0xae, 0xe2, 0xea, 0x23, 0x78, 0x8e, 0xf3, 0xe9, 0xb9, 0xd3, 0x9e, 0x6d, 0x02, 0x71,
   0x4a, 0xc9, 0xc1, 0x34, 0x7d, 0x92, 0xf9, 0x09, 0xb0, 0x85, 0xe6, 0xfb, 0xa6, 0x66, 0xf7, 0x99,
   0xcd, 0x07, 0x91, 0xc7, 0xfe, 0x60, 0x4b, 0xaa, 0xfd, 0xe6, 0x1f, 0xc4, 0x56, 0x73, 0xc1, 0xb7,
   0x87, 0x40, 0x9a, 0xf1]], 3, 2, 1) := by decide +kernel
theorem test_encs_empty_when_exhausted : (nextOf (exec (.encs []) (keyedCore 1 0x100000000))).map
    (fun s => (s.rspOut, s.ctr)) = some ([[0, 0, 0, 0, 0, 0, 0, 0, 0]], 0x100000000) := by decide +kernel
theorem test_next_last_block : (nextOf (exec .next (keyedCore 0xFFFFFFFE 0xFFFFFFFF))).map
    (fun s => (s.rspOut, s.ctr, exh s)) = some ([[0x00, 0x40, 0, 0, 0, 0, 0, 0, 0] ++
  [0xff, 0x29, 0x41, 0xb8, 0xd7, 0x40, 0xf6, 0xcb, 0xb5, 0x09, 0x36, 0xbf, 0x99, 0x7e, 0xbd, 0x52,
   0x18, 0xcb, 0x10, 0x8d, 0xc5, 0x3f, 0x41, 0xc6, 0x48, 0x41, 0xd0, 0x21, 0x81, 0x67, 0x43, 0x0c,
   0xa0, 0x3b, 0x77, 0x0c, 0xa7, 0x4c, 0xcb, 0x64, 0x2a, 0x28, 0x19, 0x4d, 0x1d, 0xed, 0xd2, 0xed,
   0x13, 0x15, 0x1e, 0x25, 0xec, 0x5d, 0x7f, 0xae, 0xb6, 0xd0, 0x60, 0xbf, 0xb7, 0xe6, 0xb1, 0x46]], 0x100000000, true) := by decide +kernel
theorem test_next_exhausted : (nextOf (exec .next (keyedCore 1 0x100000000))).map (fun s => (s.rspOut, s.ctr))
    = some ([[3, 0, 0, 0, 0, 0, 0, 0, 0]], 0x100000000) := by decide +kernel

/-! ### Frames through the step (V51, V53, V59 to V61) -/

theorem test_step_not_keyed : answerOf (step (withFrame [0x02, 1, 0, 0, 0] State.reset))
    = some [4, 0, 0, 0, 0, 0, 0, 0, 0] := by decide +kernel
theorem test_step_not_keyed_before_overflow : answerOf (step (withFrame
    ([0x04, 0xff, 0xff, 0xff, 0xff, 0x41, 0, 0, 0, 0, 0, 0, 0] ++ List.replicate 65 0) State.reset))
    = some [4, 0, 0, 0, 0, 0, 0, 0, 0] := by decide +kernel
theorem test_step_short_init_unkeys : (nextOf (step (withFrame [0x01, 0x00] (keyedCore 7 7)))).map
    (fun s => (s.keyed, s.ic, s.cmdIn, s.rspOut)) = some (false, 7, [], [[6, 0, 0, 0, 0, 0, 0, 0, 0]]) := by decide +kernel
theorem test_step_bad_frame_keeps_key : (nextOf (step (withFrame [0x03, 2, 0, 0, 0, 0, 0, 0, 0, 0xaa] (keyedCore 7 7)))).map
    (fun s => (s.keyed, s.rspOut)) = some (true, [[6, 0, 0, 0, 0, 0, 0, 0, 0]]) := by decide +kernel
theorem test_step_illegal_command : (nextOf (step (withFrame [0x00] (keyedCore 7 7)))).map
    (fun s => (s.keyed, s.rspOut)) = some (true, [[5, 0, 0, 0, 0, 0, 0, 0, 0]]) := by decide +kernel
theorem test_step_lane : (nextOf (step (coreWithX v20))).map (fun s => (s.x[0], s.x[1], s.eseq))
    = some (0xabbaa25c, 0x3320646e, .round 0 .col #v[true, false, false, false]) := by decide +kernel
theorem test_step_barrier_after_last_phase : (nextOf (step { State.reset with eseq := .round 9 .diag allLanes })).map (·.eseq)
    = some .final := by decide +kernel
theorem test_reset_operation : (applyReset (keyedCore 7 7)).keyed = false ∧ (applyReset (keyedCore 7 7)).key = (keyedCore 7 7).key := by
  decide +kernel

/-! ### Witnesses: for each statement with hypotheses, a case that meets them all -/

/-- DecodeOfEncodeIsTheInstruction: the longest key INIT can carry, and data. -/
theorem wit_wf : (Instr.init 1 (List.replicate 255 0) []).wf = true ∧ (Instr.encc 0xFFFFFFFF [0xaa]).wf = true := by
  decide +kernel

/-- EncodeOfDecodeIsTheWords, one case for each space. -/
theorem wit_decodes : decode (.frame [0x02, 0xff, 0xff, 0xff, 0xff]) = some (.ksb 0xFFFFFFFF) ∧
    decode (.entry 0x349E) = some .qd3 := by decide +kernel

/-- EveryFrameGetsOneResponse: an idle core with two waiting frames, and both ends of the range of k. -/
theorem wit_two_frames_wait : (withFrame [0x06] (withFrame [] State.reset)).eseq = .idle ∧
    0 ≤ (withFrame [0x06] (withFrame [] State.reset)).cmdIn.length ∧
    (withFrame [0x06] (withFrame [] State.reset)).cmdIn.length = 2 := by decide +kernel

/-- StepExecutesTheFrameAtTheHead, FirstErrorDecidesTheStatus. -/
theorem wit_frame_waits : (withFrame [0x06] State.reset).eseq = .idle ∧ (withFrame [0x06] State.reset).cmdIn = [0x06] :: [] ∧
    decodeFrame [0x06] = .instr .next := by decide +kernel

/-- IdleCoreWaits. -/
theorem wit_nothing_waits : State.reset.eseq = .idle ∧ State.reset.cmdIn = [] := by decide

/-- LaneStepRunsTheTableEntry, at the first and the last lane. -/
theorem wit_lane : (coreWithX v20).eseq = .round 0 .col noLanes ∧ noLanes[(0 : Fin 4)] = false ∧
    (∀ k : Fin 4, k < 0 → noLanes[k] = true) ∧ (#v[true, true, true, false] : Lanes)[(3 : Fin 4)] = false ∧
    (∀ k : Fin 4, k < 3 → (#v[true, true, true, false] : Lanes)[k] = true) := by decide +kernel

/-- SequencerStepsInOrder, each clause; the second at its boundary, double-round 8. -/
theorem wit_sequencer : ∀ q ∈ ([.round 9 .col allLanes, .round 8 .diag allLanes, .round 9 .diag allLanes, .final, .serial,
    .done] : List Eseq), ({ State.reset with eseq := q } : State).eseq = q ∧ (9 : Fin 10).val = (8 : Fin 10).val + 1 := by
  decide +kernel

/-- EveryScheduleDeliversTheKeystream: the model's own schedule is one that the rules allow, and it ends idle. -/
theorem wit_schedule : State.reset.eseq = .idle ∧ (∀ a ∈ ([.lane 2, .lane 0] : List EngineAct), a ≠ .start) ∧
    allowed [.start, .lane 2, .lane 0] State.reset := by
  refine ⟨rfl, by decide, ?_⟩
  simp only [allowed]
  decide +kernel

/-- EveryScheduleDeliversTheKeystream, last clause: the model's own schedule comes back to idle. -/
theorem wit_schedule_ends : (engineRun blockActs State.reset).eseq = .idle ∧ (∀ a ∈ blockActs.tail, a ≠ .start) := by
  decide +kernel

/-- RotationMovesEveryBit, at both ends of its range. -/
theorem wit_rotation : 1 ≤ 1 ∧ 1 ≤ 31 ∧ 31 ≤ 31 := by decide

/-- InitLoadsTheInstance; and FailedInitLeavesTheCoreUnkeyed, each clause next to its boundary. -/
theorem wit_init : testKey.length = 32 ∧ testNonce.length = 12 ∧ (List.replicate 31 (0 : Byte)).length ≠ 32 ∧
    (List.replicate 33 (0 : Byte)).length ≠ 32 ∧ (List.replicate 11 (0 : Byte)).length ≠ 12 := by decide +kernel

/-- UnkeyedCoreRefuses. -/
theorem wit_unkeyed : State.reset.keyed = false := by decide

/-- KsbReturnsTheBlock, EncStartsAtTheInitialCounter, EnccStartsAtItsOperand: completion at the last counter, refusal at
the first length past it. -/
theorem wit_range : (keyedCore 0xFFFFFFFF 0).keyed = true ∧
    (keyedCore 0xFFFFFFFF 0).ic.toNat + ((List.replicate 64 (0 : Byte)).length + 63) / 64 ≤ 2 ^ 32 ∧
    List.replicate 65 (0 : Byte) ≠ [] ∧
    2 ^ 32 < (keyedCore 0xFFFFFFFF 0).ic.toNat + ((List.replicate 65 (0 : Byte)).length + 63) / 64 ∧
    (0xFFFFFFFF : Word).toNat + ((List.replicate 64 (0 : Byte)).length + 63) / 64 ≤ 2 ^ 32 ∧
    2 ^ 32 < (0xFFFFFFFF : Word).toNat + ((List.replicate 65 (0 : Byte)).length + 63) / 64 := by decide +kernel

/-- EncsAdvancesTheCursor and NextReturnsTheCursorsBlock: completion with the last block left, refusal when exhausted. -/
theorem wit_cursor : (keyedCore 1 0xFFFFFFFF).keyed = true ∧
    (keyedCore 1 0xFFFFFFFF).ctr.toNat + (([0] : List Byte).length + 63) / 64 ≤ 2 ^ 32 ∧
    (keyedCore 1 0xFFFFFFFF).ctr.toNat ≤ 0xFFFFFFFF ∧ ([0] : List Byte) ≠ [] ∧
    2 ^ 32 < (keyedCore 1 0x100000000).ctr.toNat + (([0] : List Byte).length + 63) / 64 ∧
    0xFFFFFFFF < (keyedCore 1 0x100000000).ctr.toNat := by decide +kernel

/-- DecryptionUndoesEncryption: a core that has encrypted one byte (V45's first byte). -/
theorem wit_encrypted : ∃ t, (keyedCore 1 1).keyed = true ∧ exec (.enc [0x68]) (keyedCore 1 1) = .next t ∧
    exec (.encc 1 [0x68]) (keyedCore 1 1) = .next t ∧ AnswersOk (keyedCore 1 1) t [0x78] := by
  refine ⟨respond (.ok (streamXor 1 [0x68] (keyedCore 1 1)).2) (streamXor 1 [0x68] (keyedCore 1 1)).1, rfl, rfl, rfl, ?_⟩
  unfold AnswersOk
  decide +kernel

/-- DataSplitsAtWholeBlocks: the first part is empty or one block; the whole is answered OK. -/
theorem wit_split : ∃ t, ([] : List Byte).length = 64 * 0 ∧ (List.replicate 64 (0 : Byte)).length = 64 * 1 ∧
    (keyedCore 1 1).keyed = true ∧ exec (.encs ([] ++ [0x68])) (keyedCore 1 1) = .next t ∧
    AnswersOk (keyedCore 1 1) t [0x78] := by
  refine ⟨respond (.ok (cursorXor [0x68] (keyedCore 1 1)).2) (cursorXor [0x68] (keyedCore 1 1)).1, rfl, rfl, rfl, rfl, ?_⟩
  unfold AnswersOk
  decide +kernel

/-- StatelessCommandsRepeat, each of the three. -/
theorem wit_stateless : (∃ c, Instr.ksb 1 = .ksb c) ∧ (∃ d, Instr.enc [] = .enc d) ∧ (∃ c d, Instr.encc 0 [] = .encc c d) :=
  ⟨⟨1, rfl⟩, ⟨[], rfl⟩, ⟨0, [], rfl⟩⟩

/-- ErrorsChangeNothingButKeyed: a frame for each of the six errors. -/
theorem wit_errors :
    firstError (keyedCore 1 1) [] = some .badFrame ∧ firstError (keyedCore 1 1) [0x07] = some .illegalCommand ∧
    firstError (keyedCore 1 1) [0x01, 0x00] = some .badFrame ∧ firstError State.reset [0x06] = some .notKeyed ∧
    firstError State.reset [0x01, 0, 0, 0, 0, 0, 0] = some .invalidKeyLength ∧
    firstError State.reset ([0x01, 0, 0, 0, 0, 32, 0] ++ testKey) = some .invalidNonceLength ∧
    firstError (keyedCore 1 0x100000000) [0x06] = some .counterOverflow ∧
    firstError (keyedCore 1 0x0FFFFFFFF) [0x06] = none := by decide +kernel

/-- CountersStayInRange and ExhaustedExactlyPastTheLastCounter, at both ends of the cursor's range. -/
theorem wit_counters : CountersInRange (keyedCore 0xFFFFFFFE 0x100000000) ∧ CountersInRange (keyedCore 7 7) := by
  unfold CountersInRange
  decide +kernel

/-- ResponsesStayWellFormed: an answer of each kind stands on the channel. -/
theorem wit_responses : ResponsesWellFormed { State.reset with rspOut := [okFrame [0xaa], errorFrame 0x06] } := by
  unfold ResponsesWellFormed ResponseWellFormed
  decide +kernel

/-- CountersStayInRange, ResponsesStayWellFormed, OnlyInitChangesTheInstance: a step that takes a frame, and one of the
engine, with no INIT. -/
theorem wit_no_init : takesInit (withFrame [0x06] (keyedCore 7 7)) = false ∧
    (nextOf (step (withFrame [0x06] State.reset))).isSome = true ∧ takesInit (coreWithX v20) = false ∧
    (nextOf (step (coreWithX v20))).isSome = true := by decide +kernel

/-- DeadRegistersAreInvisible: two states that differ in a dead register, unkeyed and keyed. -/
theorem wit_same_to_host : SameToHost State.reset { State.reset with ic := 5, bc := 3 } ∧
    SameToHost (keyedCore 7 7) { keyedCore 7 7 with bc := 3 } := by
  unfold SameToHost
  decide +kernel

/-- ControlDoesNotDependOnSecrets: two keys, two plaintexts; and two states inside a block. -/
theorem wit_same_control : SamePublicPart (.enc [0x00]) (.enc [0xff]) ∧
    SameControl (keyedCore 7 7) { keyedCore 7 7 with key := Vector.replicate 8 0 } ∧
    (coreWithX v20).eseq ≠ .idle ∧ SameControl (coreWithX v20) (coreWithX v21) := by
  unfold SamePublicPart SameControl
  decide +kernel


end Sys2Proof.Tests
end

/-! SUPPORT. What a host can observe of a core between commands, and what a later answer can depend on, as a function of
the frames alone: KEYED and the architectural registers (R20, R35, R38, R43). Every instruction's meaning is tied to it
once, in `exec_effect`; the state's invariants and the claims on dead registers are then facts about that function. -/

namespace Sys2Proof.Proofs

open Sys2Proof.Machine Sys2Proof.Safety Sys2Proof.Laws

/-! ### The view and the effect of an instruction on it -/

/-- KEYED and the registers that a later command's result can depend on. -/
structure View where
  keyed : Bool
  inst : Instance

/-- The view of a state. -/
def viewOf (s : State) : View := ⟨s.keyed, instanceOf s⟩

@[simp] theorem viewOf_keyed (s : State) : (viewOf s).keyed = s.keyed := rfl
@[simp] theorem viewOf_inst (s : State) : (viewOf s).inst = instanceOf s := rfl
@[simp] theorem instanceOf_key (s : State) : (instanceOf s).key = s.key := rfl
@[simp] theorem instanceOf_nonce (s : State) : (instanceOf s).nonce = s.nonce := rfl
@[simp] theorem instanceOf_ic (s : State) : (instanceOf s).ic = s.ic := rfl
@[simp] theorem instanceOf_ctr (s : State) : (instanceOf s).ctr = s.ctr := rfl

/-- A failed INIT clears KEYED; another refusal leaves it (R210). -/
def View.unkeyIf (isInit : Bool) (v : View) : View := { v with keyed := v.keyed && !isInit }

/-- The cursor moves on by `n` blocks (R174, R175). -/
def View.advance (n : Nat) (v : View) : View := { v with inst := { v.inst with ctr := v.inst.ctr + BitVec.ofNat 33 n } }

@[simp] theorem View.unkeyIf_false (v : View) : v.unkeyIf false = v := by simp [View.unkeyIf]
@[simp] theorem View.advance_zero (v : View) : v.advance 0 = v := by simp [View.advance]
@[simp] theorem View.unkeyIf_keyed (b : Bool) (v : View) : (v.unkeyIf b).keyed = (v.keyed && !b) := rfl
@[simp] theorem View.advance_ctr (n : Nat) (v : View) :
    (v.advance n).inst.ctr = v.inst.ctr + BitVec.ofNat 33 n := rfl

/-- The view that an INIT with a key and a nonce of the right lengths leaves (R170). -/
def loadedView (ctr : Word) (key nonce : List Byte) : View := ⟨true, packKey key, packNonce nonce, ctr, ctr.setWidth 33⟩

/-- NEXT's test on the cursor (R175). -/
def View.exhausted (v : View) : Bool := decide (maxCounter < v.inst.ctr.toNat)

@[simp] theorem viewOf_exhausted (s : State) : (viewOf s).exhausted = ctrExhausted s := rfl

/-- What a command other than INIT does: the two tests in R208's order, then the answer and the view it leaves. -/
def View.guarded (v : View) (past : Bool) (payload : List Byte) (after : View) : Option Response × View :=
  if v.keyed = false then (some (.error .notKeyed), v)
  else if past then (some (.error .counterOverflow), v)
  else (some (.ok payload), after)

/-- The response of an instruction, if it has one, and the view it leaves, as a function of the view it finds. -/
def effect (i : Instr) (v : View) : Option Response × View :=
  match i with
  | .init ctr key nonce =>
    if key.length ≠ 32 then (some (.error .invalidKeyLength), v.unkeyIf true)
    else if nonce.length ≠ 12 then (some (.error .invalidNonceLength), v.unkeyIf true)
    else (some (.ok []), loadedView ctr key nonce)
  | .ksb ctr => v.guarded false (keystreamBlock v.inst.key v.inst.nonce ctr) v
  | .enc data =>
    v.guarded (ovfCheck v.inst.ic.toNat data.length) (xorStream v.inst.key v.inst.nonce v.inst.ic.toNat data) v
  | .encc ctr data =>
    v.guarded (ovfCheck ctr.toNat data.length) (xorStream v.inst.key v.inst.nonce ctr.toNat data) v
  | .encs data =>
    v.guarded (ovfCheck v.inst.ctr.toNat data.length)
      (xorStream v.inst.key v.inst.nonce (v.inst.ctr.setWidth 32).toNat data) (v.advance (numBlocks data.length))
  | .next =>
    v.guarded v.exhausted
      (keystreamBlock v.inst.key v.inst.nonce (v.inst.ctr.setWidth 32)) (v.advance 1)
  | .qc0 | .qc1 | .qc2 | .qc3 | .qd0 | .qd1 | .qd2 | .qd3 => (none, v)

/-- The same for a frame: a command's effect, or a refusal (R165, R209). -/
def frameEffect (f : Frame) (v : View) : Option Response × View :=
  match decodeFrame f with
  | .instr i => effect i v
  | .illegalCommand => (some (.error .illegalCommand), v.unkeyIf (isInitFrame f))
  | .badFrame => (some (.error .badFrame), v.unkeyIf (isInitFrame f))

/-! ### The model's instructions have that effect -/

/-- `t` is `s` after a response, if there is one, and with the view that `e` gives; frames that wait still wait, and an
idle core is idle again. -/
structure HasEffect (s t : State) (e : Option Response × View) : Prop where
  view : viewOf t = e.2
  rspOut : t.rspOut = s.rspOut ++ (e.1.map Response.frame).toList
  cmdIn : t.cmdIn = s.cmdIn
  eseq : s.eseq = .idle → t.eseq = .idle

/-- A refusal (R209, R210). -/
theorem raise_hasEffect (e : ErrorCode) (isInit : Bool) (s : State) :
    HasEffect s (raise e isInit s) (some (.error e), (viewOf s).unkeyIf isInit) :=
  ⟨rfl, rfl, rfl, fun _ => rfl⟩

/-- A refusal of a command other than INIT. -/
theorem raise_false_hasEffect (e : ErrorCode) (s : State) : HasEffect s (raise e false s) (some (.error e), viewOf s) := by
  simpa using raise_hasEffect e false s

/-- An OK response after a computation that leaves key, nonce, IC, KEYED and the channels. -/
theorem respond_hasEffect {s t : State} (payload : List Byte) (n : Nat) (hf : LoopFrame s t)
    (hc : t.ctr = s.ctr + BitVec.ofNat 33 n) (he : s.eseq = .idle → t.eseq = .idle) :
    HasEffect s (respond (.ok payload) t) (some (.ok payload), (viewOf s).advance n) := by
  refine ⟨?_, by simp [hf.rspOut], by simp [hf.cmdIn], he⟩
  simp [viewOf, instanceOf, View.advance, hf.key, hf.nonce, hf.ic, hf.keyed, hc]

/-- The same when the cursor stays. -/
theorem respond_hasEffect_of_ctr {s t : State} (payload : List Byte) (hf : LoopFrame s t) (hc : t.ctr = s.ctr)
    (he : s.eseq = .idle → t.eseq = .idle) :
    HasEffect s (respond (.ok payload) t) (some (.ok payload), viewOf s) := by
  simpa using respond_hasEffect payload 0 hf (by simp [hc]) he

/-- The same when the cursor advances after the computation (R175). -/
theorem respond_advanceCursor_hasEffect {s t : State} (payload : List Byte) (hf : LoopFrame s t) (hc : t.ctr = s.ctr)
    (he : s.eseq = .idle → t.eseq = .idle) :
    HasEffect s (respond (.ok payload) (advanceCursor t)) (some (.ok payload), (viewOf s).advance 1) :=
  respond_hasEffect (t := advanceCursor t) payload 1 ⟨hf.key, hf.nonce, hf.ic, hf.keyed, hf.cmdIn, hf.rspOut⟩
    (by simp [hc]) he

/-- One block touches neither key, nonce, IC and KEYED nor the channels (R160). -/
theorem ksBlock_loopFrame (c : Word) (s : State) : LoopFrame s (ksBlock c s) := by
  rw [ksBlock_eq]; exact ⟨rfl, rfl, rfl, rfl, rfl, rfl⟩

@[simp] theorem ksBlock_ctr (c : Word) (s : State) : (ksBlock c s).ctr = s.ctr := by rw [ksBlock_eq]
@[simp] theorem ksBlock_eseq (c : Word) (s : State) : (ksBlock c s).eseq = .idle := by rw [ksBlock_eq]
@[simp] theorem ksBlock_ks_toList (c : Word) (s : State) :
    (ksBlock c s).ks.toList = keystreamBlock s.key s.nonce c := by rw [ksBlock_eq]; rfl

/-- The loops leave an idle engine idle. -/
theorem idle_of_loopRegisters {s t : State} {base n : Nat} (h : LoopRegisters s t base n) (hs : s.eseq = .idle) :
    t.eseq = .idle := by
  simp [h.eseq, hs]

/-- The two tests that every command but INIT makes, NotKeyed before CounterOverflow (R208). -/
theorem guarded_hasEffect {s t : State} {past : Bool} {payload : List Byte} {after : View}
    (h : HasEffect s t (some (.ok payload), after)) :
    ∃ u, (if s.keyed = false then .next (raise .notKeyed false s)
        else if past then .next (raise .counterOverflow false s)
        else .next t : Host.Outcome State Fault Refusal) = .next u ∧
      HasEffect s u ((viewOf s).guarded past payload after) := by
  unfold View.guarded
  rw [viewOf_keyed]
  split_ifs
  · exact ⟨_, rfl, raise_false_hasEffect ..⟩
  · exact ⟨_, rfl, raise_false_hasEffect ..⟩
  · exact ⟨_, rfl, h⟩

/-- A table entry answers nothing and writes X alone (R115 to R122). -/
theorem applyEntry_hasEffect (e : Fin 8) (s : State) : HasEffect s (applyEntry e s) (none, viewOf s) :=
  ⟨rfl, by simp, rfl, id⟩

/-- Every instruction has a next state, and it is the one that `effect` describes. -/
theorem exec_effect (i : Instr) (s : State) : ∃ t, exec i s = .next t ∧ HasEffect s t (effect i (viewOf s)) := by
  cases i with
  | init ctr key nonce =>
    simp only [exec, execInit, effect]
    split_ifs
    · exact ⟨_, rfl, raise_hasEffect ..⟩
    · exact ⟨_, rfl, raise_hasEffect ..⟩
    · exact ⟨_, rfl, rfl, rfl, rfl, id⟩
  | ksb ctr =>
    have h := respond_hasEffect_of_ctr (keystreamBlock s.key s.nonce ctr) (ksBlock_loopFrame ctr s) (by simp) (by simp)
    simpa [exec, execKsb, effect] using guarded_hasEffect (past := false) h
  | enc data =>
    obtain ⟨hf, hr, hc, ho⟩ := streamXor_spec s.ic data s
    simpa [exec, execEnc, effect, ho] using guarded_hasEffect (respond_hasEffect_of_ctr _ hf hc (idle_of_loopRegisters hr))
  | encc ctr data =>
    obtain ⟨hf, hr, hc, ho⟩ := streamXor_spec ctr data s
    simpa [exec, execEncc, effect, ho] using guarded_hasEffect (respond_hasEffect_of_ctr _ hf hc (idle_of_loopRegisters hr))
  | encs data =>
    obtain ⟨hf, hr, hc, ho⟩ := cursorXor_spec data s
    simpa [exec, execEncs, effect, ho, ctrLow] using
      guarded_hasEffect (respond_hasEffect _ _ hf hc (idle_of_loopRegisters hr))
  | next =>
    have h := respond_advanceCursor_hasEffect (keystreamBlock s.key s.nonce (ctrLow s))
      (ksBlock_loopFrame (ctrLow s) s) (by simp) (by simp)
    simpa [exec, execNext, effect, ctrLow] using guarded_hasEffect (past := ctrExhausted s) h
  | qc0 | qc1 | qc2 | qc3 | qd0 | qd1 | qd2 | qd3 => exact ⟨_, rfl, applyEntry_hasEffect _ s⟩

/-- The answer to a frame is the one that `frameEffect` describes. -/
theorem stepFrame_effect (f : Frame) (s : State) :
    ∃ t, stepFrame f s = .next t ∧ HasEffect s t (frameEffect f (viewOf s)) := by
  rcases stepFrame_cases f s with ⟨i, hd, he⟩ | ⟨hd, he⟩ | ⟨hd, he⟩ <;> simp only [frameEffect, hd, he]
  · exact exec_effect i s
  · exact ⟨_, rfl, raise_hasEffect ..⟩
  · exact ⟨_, rfl, raise_hasEffect ..⟩

/-- No step of the engine writes what the view holds (R140 to R145). -/
theorem engineDo_view (a : EngineAct) (s : State) : viewOf (engineDo a s) = viewOf s := by
  cases a <;> simp [engineDo, viewOf, instanceOf]

end Sys2Proof.Proofs

/-! SUPPORT. What a step can do to the view, said once, and the rules that follow: the range of the counters (R28, R42),
and that INIT alone writes key, nonce, IC and KEYED (R41). What reset and the flag EXH say of the counters comes last. -/

namespace Sys2Proof.Proofs

open Sys2Proof.Machine Sys2Proof.Safety Sys2Proof.Laws

/-! ### What can happen to the view -/

/-- The cursor moves on by a number of blocks, perhaps 0, none of which has a counter past 0xFFFFFFFF (R163, R174). -/
def Advances (v w : View) : Prop := ∃ n, (n = 0 ∨ v.inst.ctr.toNat + n ≤ 2 ^ 32) ∧ w = v.advance n

/-- INIT clears KEYED, or loads a new key, nonce and counter (R170, R210). -/
def Reloads (v w : View) : Prop := w = v.unkeyIf true ∨ ∃ ctr key nonce, w = loadedView ctr key nonce

theorem Advances.refl (v : View) : Advances v v := ⟨0, .inl rfl, v.advance_zero.symm⟩

/-- The new cursor is not reduced modulo 2^33. -/
theorem advance_ctr_toNat {v : View} {n : Nat} (h : n = 0 ∨ v.inst.ctr.toNat + n ≤ 2 ^ 32) :
    (v.advance n).inst.ctr.toNat = v.inst.ctr.toNat + n := by
  have := v.inst.ctr.isLt
  simp only [View.advance_ctr, BitVec.toNat_add, BitVec.toNat_ofNat]
  omega

/-- A guarded command leaves the view, or passes both tests and leaves what it says. -/
theorem guarded_advances {v after : View} {past : Bool} (payload : List Byte)
    (h : past = false → Advances v after) : Advances v (v.guarded past payload after).2 := by
  unfold View.guarded
  split_ifs with hk hp
  · exact .refl v
  · exact .refl v
  · exact h (by simpa using hp)

/-- A payload that passes the range check needs no counter past 0xFFFFFFFF (R163). -/
theorem numBlocks_of_ovfCheck {base len : Nat} (h : ovfCheck base len = false) :
    numBlocks len = 0 ∨ base + numBlocks len ≤ 2 ^ 32 := by
  simp only [ovfCheck, Bool.and_eq_false_iff, decide_eq_false_iff_not] at h
  simp only [maxCounter] at h
  omega

/-- An instruction moves the cursor on, or it is INIT. -/
theorem effect_cases (i : Instr) (v : View) :
    Advances v (effect i v).2 ∨ ((∃ ctr key nonce, i = .init ctr key nonce) ∧ Reloads v (effect i v).2) := by
  cases i with
  | init ctr key nonce =>
    refine .inr ⟨⟨_, _, _, rfl⟩, ?_⟩
    simp only [effect]
    split_ifs
    · exact .inl rfl
    · exact .inl rfl
    · exact .inr ⟨ctr, key, nonce, rfl⟩
  | ksb | enc | encc => exact .inl (guarded_advances _ fun _ => .refl v)
  | encs data => exact .inl (guarded_advances _ fun h => ⟨_, numBlocks_of_ovfCheck h, rfl⟩)
  | next =>
    refine .inl (guarded_advances _ fun h => ⟨1, .inr ?_, rfl⟩)
    rw [View.exhausted, decide_eq_false_iff_not, maxCounter] at h
    omega
  | qc0 | qc1 | qc2 | qc3 | qd0 | qd1 | qd2 | qd3 => exact .inl (.refl v)

/-- Only a frame whose first byte is 0x01 decodes to INIT (R82). -/
theorem isInitFrame_of_decode {f : Frame} {ctr : Word} {key nonce : List Byte}
    (h : decodeFrame f = .instr (.init ctr key nonce)) : isInitFrame f = true := by
  rcases decodeFrame_instr h with h | h | ⟨hb, hl, -, -⟩ | h | h | h
  case inr.inr.inl => simp [isInitFrame, hb]; omega
  all_goals simp at h

/-- A refused frame leaves the view, or it is an INIT frame and clears KEYED (R210). -/
theorem unkeyIf_cases (isInit : Bool) (v : View) :
    Advances v (v.unkeyIf isInit) ∨ (isInit = true ∧ Reloads v (v.unkeyIf isInit)) := by
  cases isInit with
  | false => exact .inl (by simpa using Advances.refl v)
  | true => exact .inr ⟨rfl, .inl rfl⟩

/-- A frame moves the cursor on, or it is an INIT frame. -/
theorem frameEffect_cases (f : Frame) (v : View) :
    Advances v (frameEffect f v).2 ∨ (isInitFrame f = true ∧ Reloads v (frameEffect f v).2) := by
  unfold frameEffect
  cases hd : decodeFrame f with
  | instr i =>
    rcases effect_cases i v with h | ⟨⟨ctr, key, nonce, rfl⟩, h⟩
    · exact .inl h
    · exact .inr ⟨isInitFrame_of_decode hd, h⟩
  | illegalCommand => exact unkeyIf_cases _ v
  | badFrame => exact unkeyIf_cases _ v

/-- A step moves the cursor on, or it takes an INIT frame. -/
theorem step_view_cases {s t : State} (h : step s = .next t) :
    Advances (viewOf s) (viewOf t) ∨ (takesInit s = true ∧ Reloads (viewOf s) (viewOf t)) := by
  rcases step_cases s with ⟨-, -, hs⟩ | ⟨f, rest, hi, hc, hs⟩ | ⟨a, -, -, hs⟩
  · cases hs.symm.trans h
    exact .inl (.refl _)
  · obtain ⟨u, hu, heff⟩ := stepFrame_effect f { s with cmdIn := rest }
    cases (hs.trans hu).symm.trans h
    rw [heff.view, show takesInit s = isInitFrame f by simp [takesInit, nextFrame, hi, hc]]
    exact frameEffect_cases f (viewOf s)
  · cases hs.symm.trans h
    exact .inl (engineDo_view a s ▸ .refl _)

/-! ### The rules -/

/-- The cursor of a state that has moved on by `n` blocks. -/
theorem ctr_toNat_of_advance {s t : State} {n : Nat} (hn : n = 0 ∨ s.ctr.toNat + n ≤ 2 ^ 32)
    (ht : viewOf t = (viewOf s).advance n) : t.ctr.toNat = s.ctr.toNat + n := by
  rw [← instanceOf_ctr t, ← viewOf_inst, ht]
  exact advance_ctr_toNat hn

/-- CTR is in range when the cursor has moved on by blocks that all have a counter (R28, R42). -/
theorem Advances.countersInRange {s t : State} (h : Advances (viewOf s) (viewOf t)) (hs : CountersInRange s) :
    CountersInRange t := by
  obtain ⟨n, hn, ht⟩ := h
  obtain ⟨hle, hic⟩ := hs
  have hctr : t.ctr.toNat = s.ctr.toNat + n := ctr_toNat_of_advance hn ht
  rw [viewOf_inst, instanceOf_ctr] at hn
  have hkeyed : t.keyed = s.keyed := congrArg View.keyed ht
  have hicEq : t.ic = s.ic := congrArg (fun v => v.inst.ic) ht
  refine ⟨?_, fun hk => ?_⟩
  · omega
  · have := hic (hkeyed ▸ hk)
    rw [hicEq]
    omega

/-- CTR is in range after INIT: it is IC, or KEYED is 0 and it is as it was (R42). -/
theorem Reloads.countersInRange {s t : State} (h : Reloads (viewOf s) (viewOf t)) (hs : CountersInRange s) :
    CountersInRange t := by
  rcases h with ht | ⟨ctr, key, nonce, ht⟩
  · have hctr : t.ctr = s.ctr := congrArg (fun v => v.inst.ctr) ht
    have hkeyed : t.keyed = false := by simpa using congrArg View.keyed ht
    exact ⟨hctr ▸ hs.1, by simp [hkeyed]⟩
  · have hctr : t.ctr = ctr.setWidth 33 := congrArg (fun v => v.inst.ctr) ht
    have hic : t.ic = ctr := congrArg (fun v => v.inst.ic) ht
    have hlt := ctr.isLt
    have hnat : t.ctr.toNat = ctr.toNat := by rw [hctr, BitVec.toNat_setWidth]; omega
    exact ⟨by omega, fun _ => by rw [hic, hnat]⟩

/-- Settles O39: a step moves the cursor on within its range, or reloads it from INIT's operand. -/
theorem countersStayInRange : Obligations.CountersStayInRange := by
  intro s t hs h
  rcases step_view_cases h with ha | ⟨-, hr⟩
  · exact ha.countersInRange hs
  · exact hr.countersInRange hs

/-- Settles O41: without an INIT frame the cursor moves on and the rest of the view stays. -/
theorem onlyInitChangesTheInstance : Obligations.OnlyInitChangesTheInstance := by
  intro s t hs h
  rcases step_view_cases h with ⟨n, hn, ht⟩ | ⟨hi, -⟩
  · have hctr := ctr_toNat_of_advance hn ht
    exact ⟨congrArg (fun v => v.inst.key) ht, congrArg (fun v => v.inst.nonce) ht, congrArg (fun v => v.inst.ic) ht,
      congrArg View.keyed ht, by omega⟩
  · simp [hs] at hi

/-- Bit 32 of CTR says whether CTR has reached 2^32 (R28). -/
theorem exh_iff (s : State) : exh s = true ↔ 2 ^ 32 ≤ s.ctr.toNat := by
  have h : exh s = s.ctr.msb := (BitVec.msb_eq_getLsbD_last s.ctr).symm
  simp [h, BitVec.msb_eq_decide]

/-- CTR[31:0] as a number (R28). -/
theorem ctrLow_toNat (s : State) : (ctrLow s).toNat = s.ctr.toNat % 2 ^ 32 := BitVec.toNat_setWidth ..

/-- Settles O42: in range, bit 32 is set at 2^32 alone. -/
theorem exhaustedExactlyPastTheLastCounter : Obligations.ExhaustedExactlyPastTheLastCounter := by
  rintro s ⟨hle, -⟩
  have hexh := exh_iff s
  refine ⟨by rw [hexh]; omega, fun h => ?_, fun h => ?_⟩
  · have := hexh.mp h
    apply BitVec.eq_of_toNat_eq
    show (ctrLow s).toNat = 0
    rw [ctrLow_toNat]
    omega
  · have : ¬ 2 ^ 32 ≤ s.ctr.toNat := by rw [← hexh, h]; decide
    rw [ctrLow_toNat]
    omega

/-- Settles O38: the reset value, field by field. -/
theorem resetMeetsTheInvariants : Obligations.ResetMeetsTheInvariants :=
  ⟨rfl, rfl, rfl, rfl, ⟨by decide, by simp [State.reset]⟩, by simp [ResponsesWellFormed, State.reset]⟩

end Sys2Proof.Proofs

/-! SUPPORT. What a host can learn: two states with the same view, up to the registers that are dead while KEYED = 0, answer
alike for ever (R35, R38, R43, R250); and a command that leaves the view is answered alike when it is sent again (R59). -/

namespace Sys2Proof.Proofs

open Sys2Proof.Machine Sys2Proof.Safety Sys2Proof.Laws

/-! ### One instruction, one step, any number of steps -/

/-- The same KEYED, and the same architectural registers if it is 1 (R38). -/
def SameView (v w : View) : Prop := v.keyed = w.keyed ∧ (v.keyed = true → v.inst = w.inst)

/-- Two views that agree up to dead registers are equal, or both are unkeyed. -/
theorem SameView.eq_or_unkeyed {v w : View} (h : SameView v w) : v = w ∨ (v.keyed = false ∧ w.keyed = false) := by
  obtain ⟨vk, vi⟩ := v
  obtain ⟨wk, wi⟩ := w
  obtain ⟨rfl, hinst⟩ := h
  cases vk with
  | true => exact .inl (congrArg (View.mk true) (hinst rfl))
  | false => exact .inr ⟨rfl, rfl⟩

theorem SameView.of_unkeyed {v w : View} (hv : v.keyed = false) (hw : w.keyed = false) : SameView v w :=
  ⟨hv.trans hw.symm, by simp [hv]⟩

/-- The response does not depend on dead registers, and the views that are left agree again. -/
def SameEffect (e e' : Option Response × View) : Prop := e.1 = e'.1 ∧ SameView e.2 e'.2

theorem SameEffect.refl (e : Option Response × View) : SameEffect e e := ⟨rfl, rfl, fun _ => rfl⟩

/-- An unkeyed core refuses alike (R204). -/
theorem guarded_unkeyed {v : View} (hv : v.keyed = false) (past : Bool) (payload : List Byte) (after : View) :
    v.guarded past payload after = (some (.error .notKeyed), v) := by
  simp [View.guarded, hv]

/-- An instruction on two unkeyed views: INIT reads neither, and every other command refuses. -/
theorem effect_sameEffect_of_unkeyed (i : Instr) {v w : View} (hv : v.keyed = false) (hw : w.keyed = false) :
    SameEffect (effect i v) (effect i w) := by
  cases i with
  | init ctr key nonce =>
    simp only [effect]
    split_ifs
    · exact ⟨rfl, .of_unkeyed (by simp) (by simp)⟩
    · exact ⟨rfl, .of_unkeyed (by simp) (by simp)⟩
    · exact .refl _
  | ksb | enc | encc | encs | next =>
    simp only [effect, guarded_unkeyed hv, guarded_unkeyed hw]
    exact ⟨rfl, .of_unkeyed hv hw⟩
  | qc0 | qc1 | qc2 | qc3 | qd0 | qd1 | qd2 | qd3 => exact ⟨rfl, .of_unkeyed hv hw⟩

/-- The answer to a frame depends on the view alone, and not on its dead registers. -/
theorem frameEffect_sameEffect (f : Frame) {v w : View} (h : SameView v w) :
    SameEffect (frameEffect f v) (frameEffect f w) := by
  rcases h.eq_or_unkeyed with rfl | ⟨hv, hw⟩
  · exact .refl _
  · unfold frameEffect
    cases decodeFrame f with
    | instr i => exact effect_sameEffect_of_unkeyed i hv hw
    | illegalCommand => exact ⟨rfl, .of_unkeyed (by simp [hv]) (by simp [hw])⟩
    | badFrame => exact ⟨rfl, .of_unkeyed (by simp [hv]) (by simp [hw])⟩

/-- An idle core with no frame waits (R221). -/
theorem step_idle_nil {s : State} (hi : s.eseq = .idle) (hc : s.cmdIn = []) : step s = .next s := by
  simp [step, fetch, hi, hc]

/-- An idle core takes the frame at the head of the command channel (R236). -/
theorem step_idle_cons {s : State} {f : Frame} {rest : List Frame} (hi : s.eseq = .idle) (hc : s.cmdIn = f :: rest) :
    step s = stepFrame f { s with cmdIn := rest } := by
  simp [step, fetch, hi, hc, takeFrame]

/-- A step keeps two states that a host cannot tell apart so. -/
theorem step_sameToHost {s t : State} (h : SameToHost s t) :
    ∃ s' t', step s = .next s' ∧ step t = .next t' ∧ SameToHost s' t' := by
  obtain ⟨hs, ht, hcmd, hrsp, hview⟩ := h
  cases hc : s.cmdIn with
  | nil =>
    exact ⟨s, t, step_idle_nil hs hc, step_idle_nil ht (hcmd ▸ hc), hs, ht, hcmd, hrsp, hview⟩
  | cons f rest =>
    obtain ⟨s', hs', hse⟩ := stepFrame_effect f { s with cmdIn := rest }
    obtain ⟨t', ht', hte⟩ := stepFrame_effect f { t with cmdIn := rest }
    obtain ⟨hresp, hsame⟩ := frameEffect_sameEffect f (v := viewOf s) (w := viewOf t) hview
    refine ⟨s', t', (step_idle_cons hs hc).trans hs', (step_idle_cons ht (hcmd ▸ hc)).trans ht', hse.eseq hs, hte.eseq ht,
      hse.cmdIn.trans hte.cmdIn.symm, ?_, ?_⟩
    · rw [hse.rspOut, hte.rspOut]
      exact congrArg₂ (fun a b => a ++ (Option.map Response.frame b).toList) hrsp hresp
    · show SameView (viewOf s') (viewOf t')
      rwa [hse.view, hte.view]

/-- Settles O43: by induction on the number of steps. -/
theorem deadRegistersAreInvisible : Obligations.DeadRegistersAreInvisible := by
  intro n
  induction n with
  | zero => exact fun s t h => ⟨s, t, rfl, rfl, h⟩
  | succ n ih =>
    intro s t h
    obtain ⟨s₁, t₁, hs, ht, h₁⟩ := step_sameToHost h
    obtain ⟨s', t', hs', ht', h'⟩ := ih s₁ t₁ h₁
    exact ⟨s', t', (run_succ_of_step core n hs).trans hs', (run_succ_of_step core n ht).trans ht', h'⟩

/-! ### After a reset -/

/-- Frames that are sent stand behind those already there (R70, R236). -/
theorem foldl_send (frames : List Frame) (s : State) :
    frames.foldl (fun u f => send f u) s = { s with cmdIn := s.cmdIn ++ frames } := by
  induction frames generalizing s with
  | nil => simp
  | cons f rest ih => rw [List.foldl_cons, ih]; simp [send]

/-- As many steps as frames wait put out as many responses (R60). -/
theorem run_waiting_rspOut_length (frames : List Frame) (s t : State) (hi : s.eseq = .idle) (hc : s.cmdIn = frames)
    (h : core.run frames.length s = .next t) : t.rspOut.length = s.rspOut.length + frames.length := by
  induction frames generalizing s with
  | nil => cases h; simp
  | cons f rest ih =>
    obtain ⟨u, hu, hui, huc, r, hur⟩ := stepFrame_answersOne f { s with cmdIn := rest } hi
    rw [List.length_cons, run_succ_of_step core _ ((step_idle_cons hi hc).trans hu)] at h
    rw [ih u hui huc h, hur]
    simp
    omega

/-- Settles O44: two cores that have been reset and sent the same frames are the same to a host. -/
theorem responsesAfterResetDependOnTheFramesAlone : Obligations.ResponsesAfterResetDependOnTheFramesAlone := by
  intro s t frames
  have hsame : SameToHost (frames.foldl (fun u f => send f u) (applyReset s))
      (frames.foldl (fun u f => send f u) (applyReset t)) := by
    simp [foldl_send, SameToHost]
  obtain ⟨s', t', hs, ht, -, -, -, hrsp, -⟩ := deadRegistersAreInvisible frames.length _ _ hsame
  refine ⟨s', t', hs, ht, hrsp, ?_⟩
  have := run_waiting_rspOut_length frames _ s' hsame.1 (by simp [foldl_send]) hs
  simpa [foldl_send] using this

/-! ### Repeating a command -/

/-- A command that writes nothing of the view answers, and leaves the view. -/
theorem guarded_self (v : View) (past : Bool) (payload : List Byte) :
    ∃ r, v.guarded past payload v = (some r, v) := by
  unfold View.guarded
  split_ifs
  · exact ⟨_, rfl⟩
  · exact ⟨_, rfl⟩
  · exact ⟨_, rfl⟩

/-- KSB, ENC and ENCC answer and leave the view (R59). -/
theorem effect_stateless {i : Instr} (v : View)
    (h : (∃ c, i = .ksb c) ∨ (∃ d, i = .enc d) ∨ (∃ c d, i = .encc c d)) : ∃ r, effect i v = (some r, v) := by
  rcases h with ⟨c, rfl⟩ | ⟨d, rfl⟩ | ⟨c, d, rfl⟩
  · exact guarded_self v ..
  · exact guarded_self v ..
  · exact guarded_self v ..

/-- Settles O35: the second time the command finds the view it found the first time. -/
theorem statelessCommandsRepeat : Obligations.StatelessCommandsRepeat := by
  intro s i hi
  obtain ⟨r, he⟩ := effect_stateless (viewOf s) hi
  obtain ⟨t, ht, hst⟩ := exec_effect i s
  rw [he] at hst
  obtain ⟨u, hu, htu⟩ := exec_effect i t
  rw [hst.view, he] at htu
  exact ⟨t, u, r.frame, ht, hu, hst.rspOut, htu.rspOut⟩

end Sys2Proof.Proofs

/-! SUPPORT. What INIT loads: the words of S as the little-endian numbers of key and nonce bytes (R21, R23, R25, R170). -/

namespace Sys2Proof.Proofs

open Sys2Proof.Machine Sys2Proof.Safety

/-- The bytes of a word denote the word (R51, R56). -/
theorem leNat_bytes32 (w : Word) : leNat (bytes32 w) = w.toNat := by
  have := w.isLt
  simp [bytes32, leNat, byteOf, BitVec.extractLsb'_toNat, Nat.shiftRight_eq_div_pow]
  omega

/-- A string from offset `k` on begins with byte `k`. -/
theorem drop_eq_byteAt_cons {bytes : List Byte} {k : Nat} (h : k < bytes.length) :
    bytes.drop k = byteAt bytes k :: bytes.drop (k + 1) := by
  rw [List.drop_eq_getElem_cons h, byteAt, List.getD_eq_getElem _ _ h]

/-- Four bytes of a string that is long enough (R11). -/
theorem take_four_drop (bytes : List Byte) (k : Nat) (h : k + 4 ≤ bytes.length) :
    (bytes.drop k).take 4 = [byteAt bytes k, byteAt bytes (k + 1), byteAt bytes (k + 2), byteAt bytes (k + 3)] := by
  rw [drop_eq_byteAt_cons (by omega), drop_eq_byteAt_cons (by omega), drop_eq_byteAt_cons (by omega),
    drop_eq_byteAt_cons (by omega)]
  rfl

/-- A packed word is the number its four bytes denote (R23, R25, R51). -/
theorem packWord_toNat (bytes : List Byte) (j : Nat) (h : 4 * j + 4 ≤ bytes.length) :
    (packWord bytes j).toNat = leNat ((bytes.drop (4 * j)).take 4) := by
  rw [take_four_drop bytes (4 * j) h, ← bytes32_le32, leNat_bytes32, packWord]

/-- INIT on a key and a nonce of the right lengths (R170). -/
theorem exec_init (ctr : Word) (key nonce : List Byte) (s : State) (hk : key.length = 32) (hn : nonce.length = 12) :
    exec (.init ctr key nonce) s = .next (respond (.ok []) (loadInstance ctr key nonce { s with keyed := false })) := by
  simp [exec, execInit, hk, hn]

/-- Settles O22: the loads of R170, field by field. -/
theorem initLoadsTheInstance : Obligations.InitLoadsTheInstance := by
  intro ctr key nonce s hk hn
  refine ⟨_, exec_init ctr key nonce s hk hn, rfl, fun j => ?_, fun j => ?_, rfl, rfl, ?_, rfl,
    ⟨rfl, rfl, rfl, rfl, rfl, rfl, rfl⟩, rfl⟩
  · simpa [packKey] using packWord_toNat key j (by omega)
  · simpa [packNonce] using packWord_toNat nonce j (by omega)
  · have := ctr.isLt
    simp only [respond_ctr, loadInstance_ctr, BitVec.toNat_setWidth]
    omega

/-- Settles O21: word by word. -/
theorem stateRegisterLayout : Obligations.StateRegisterLayout := by
  intro s
  refine ⟨rfl, rfl, rfl, rfl, fun j => ?_, rfl, fun j => ?_⟩
  · fin_cases j <;> rfl
  · fin_cases j <;> rfl

end Sys2Proof.Proofs

/-! SUPPORT. The frames that wait at an idle core and the responses they get, one each and in their order (R60, R165,
R215, R236). -/

namespace Sys2Proof.Proofs

open Sys2Proof.Machine Sys2Proof.Safety Sys2Proof.Laws

/-- Settles O5: an idle core takes the frame at the head of the channel, and `stepFrame` is `exec` on what it decodes to. -/
theorem stepExecutesTheFrameAtTheHead : Obligations.StepExecutesTheFrameAtTheHead := by
  intro s f rest i hi hc hd
  rw [step_idle_cons hi hc, stepFrame, hd]

/-- What each number of steps does to the frames that wait at an idle core, by recursion on them: the responses of the
frames behind the head are those of the core that the answer to the head leaves (R60). -/
theorem run_answers_waiting (frames : List Frame) (s : State) (hi : s.eseq = .idle) (hc : s.cmdIn = frames) :
    ∃ rs : List Frame, rs.length = frames.length ∧ ∀ k, k ≤ frames.length →
      ∃ t, core.run k s = .next t ∧ t.eseq = .idle ∧ t.cmdIn = frames.drop k ∧ t.rspOut = s.rspOut ++ rs.take k := by
  induction frames generalizing s with
  | nil =>
    refine ⟨[], rfl, fun k hk => ?_⟩
    obtain rfl : k = 0 := Nat.le_zero.mp hk
    exact ⟨s, rfl, hi, hc, by simp⟩
  | cons f rest ih =>
    obtain ⟨u, hu, hui, huc, r, hur⟩ := stepFrame_answersOne f { s with cmdIn := rest } hi
    obtain ⟨rs, hlen, hrun⟩ := ih u hui huc
    refine ⟨r :: rs, by simp [hlen], fun k hk => ?_⟩
    cases k with
    | zero => exact ⟨s, rfl, hi, hc, by simp⟩
    | succ k =>
      obtain ⟨t, ht, hti, htc, htr⟩ := hrun k (Nat.le_of_succ_le_succ hk)
      have hstep : core.step s = .next u := (step_idle_cons hi hc).trans hu
      exact ⟨t, (run_succ_of_step core k hstep).trans ht, hti, htc, by simp [htr, hur]⟩

/-- Settles O10: the responses of the frames that wait. -/
theorem everyFrameGetsOneResponse : Obligations.EveryFrameGetsOneResponse :=
  fun s hi => run_answers_waiting s.cmdIn s hi rfl

end Sys2Proof.Proofs

/-! SUPPORT. Byte order, and payloads: the range check on the counters of a payload's blocks (R163), and the chunks of a
payload with the offsets at which their results stand (R51, R57, R161, R162). -/

namespace Sys2Proof.Proofs

open Sys2Proof.Machine

/-! ### Byte order (R51) -/

/-- The bytes of a packed word denote the same number as the word: the first is the least significant. -/
theorem le32_toNat (b0 b1 b2 b3 : Byte) :
    (le32 b0 b1 b2 b3).toNat = b0.toNat + 2 ^ 8 * b1.toNat + 2 ^ 16 * b2.toNat + 2 ^ 24 * b3.toNat := by
  rw [← leNat_bytes32, bytes32_le32]
  simp only [leNat]
  omega

/-- Packing undoes unpacking, whatever the four bytes are called. -/
theorem le32_of_bytes32 {w : Word} {b0 b1 b2 b3 : Byte} (h : bytes32 w = [b0, b1, b2, b3]) : le32 b0 b1 b2 b3 = w := by
  simp only [bytes32, List.cons.injEq, and_true] at h
  obtain ⟨rfl, rfl, rfl, rfl⟩ := h
  exact le32_byteOf w

/-- Settles O20: the value of LE32, both round trips, and the examples. -/
theorem wordsAndBytesAreLittleEndian : Obligations.WordsAndBytesAreLittleEndian :=
  ⟨fun b0 b1 b2 b3 => ⟨le32_toNat b0 b1 b2 b3, bytes32_le32 b0 b1 b2 b3⟩,
    fun _ => ⟨rfl, fun _ _ _ _ => le32_of_bytes32⟩, by decide, by decide⟩

/-! ### The range check (R57, R163) -/

/-- The counters of the blocks rise, so the check of the last block's is the check of every block's. -/
theorem ovfCheck_iff (base len : Nat) :
    ovfCheck base len = true ↔ ∃ i, i < numBlocks len ∧ 0xFFFFFFFF < base + i := by
  simp only [ovfCheck, Bool.and_eq_true, decide_eq_true_eq]
  simp only [maxCounter]
  constructor
  · rintro ⟨hpos, hlast⟩
    exact ⟨numBlocks len - 1, by omega, by omega⟩
  · rintro ⟨i, hi, hpast⟩
    exact ⟨by omega, by omega⟩

/-- The number of blocks is the ceiling of the sixty-fourth of the length (R57). -/
theorem numBlocks_le_iff (len n : Nat) : numBlocks len ≤ n ↔ len ≤ 64 * n := by
  obtain ⟨hlt, hle⟩ := numBlocks_spec len
  omega

/-- Settles O30: the check is that of the last block, and the examples are evaluated. -/
theorem overflowCheckTestsEveryBlock : Obligations.OverflowCheckTestsEveryBlock :=
  ⟨ovfCheck_iff, numBlocks_le_iff, by decide, by decide, by decide, by decide, by decide, by decide, by decide, by decide⟩

/-! ### Chunks (R57, R161, R162) -/

/-- The first `n` chunks are the first `64 * n` bytes of the payload, or all of it. -/
theorem flatMap_chunk (data : List Byte) (n : Nat) : (List.range n).flatMap (chunk data) = data.take (64 * n) := by
  induction n with
  | zero => simp
  | succ n ih =>
    rw [List.range_succ, List.flatMap_append, ih, List.flatMap_singleton, chunk_eq_take, Nat.mul_succ, List.take_add]

/-- The output of `n` turns begins with the output of fewer turns. -/
theorem xorBlocks_prefix (key : Vector Word 8) (nonce : Vector Word 3) (base : Nat) (data : List Byte) {m n : Nat}
    (h : m ≤ n) : xorBlocks key nonce base data m <+: xorBlocks key nonce base data n := by
  induction n, h using Nat.le_induction with
  | base => exact List.prefix_rfl
  | succ n _ ih => exact ih.trans (xorBlocks_succ .. ▸ List.prefix_append _ _)

/-- Reading a part of a byte string at the part's own offsets (R11). -/
theorem memRead_append (a b c : List Byte) : memRead (a ++ b ++ c) a.length b.length = b := by
  simp [memRead]

/-- The result of a chunk that is not empty stands in the response at the chunk's own offsets (R162). -/
theorem memRead_xorStream (key : Vector Word 8) (nonce : Vector Word 3) (base : Nat) (data : List Byte) {i : Nat}
    (h : i < numBlocks data.length) :
    memRead (xorStream key nonce base data) (64 * i) (chunk data i).length
      = xorChunk (chunk data i) (keystreamBlock key nonce (BitVec.ofNat 32 (base + i))) := by
  obtain ⟨later, hlater⟩ := xorBlocks_prefix key nonce base data (Nat.succ_le_of_lt h)
  have hearlier : (xorBlocks key nonce base data i).length = 64 * i := by
    have := numBlocks_spec data.length
    rw [xorBlocks_length]
    omega
  have hresult : (xorChunk (chunk data i) (keystreamBlock key nonce (BitVec.ofNat 32 (base + i)))).length
      = (chunk data i).length :=
    xorChunk_length _ _ (by rw [chunk_length, keystreamBlock_length]; omega)
  rw [xorStream_eq, ← hlater, Nat.succ_eq_add_one, xorBlocks_succ, ← hearlier, ← hresult]
  exact memRead_append ..

/-- Settles O31: the chunks cover the payload, their lengths, and their offsets in the response. -/
theorem chunksCoverThePayload : Obligations.ChunksCoverThePayload := by
  intro data
  obtain ⟨hlt, hle⟩ := numBlocks_spec data.length
  refine ⟨?_, fun i hi => ?_, fun i hi => ?_, fun key nonce base i => memRead_xorStream key nonce base data⟩
  · rw [flatMap_chunk, List.take_of_length_le hle]
  · rw [chunk_length]
    omega
  · rw [chunk_length]
    omega

end Sys2Proof.Proofs

/-! SUPPORT. The decoder and the encoder: which frames are rejected and with which name (R83, R84), and that decoding and
encoding undo each other (R86, R89). -/

namespace Sys2Proof.Proofs

open Sys2Proof.Safety Sys2Proof.Laws

/-! ### The decoder by opcode and length (R83, R84, R86) -/

/-- The opcode bytes that name no command (R83). -/
abbrev ReservedOpcode (b : Byte) : Prop := b = 0x00 ∨ 0x07 ≤ b.toNat

theorem not_reservedOpcode_iff (b : Byte) : ¬ ReservedOpcode b ↔ 1 ≤ b.toNat ∧ b.toNat ≤ 6 := by
  rw [not_or]
  bv_omega

/-- The opcode bytes that are not reserved are those of R82's table. -/
theorem opcode_cases {b : Byte} (h : ¬ ReservedOpcode b) :
    b = 0x01 ∨ b = 0x02 ∨ b = 0x03 ∨ b = 0x04 ∨ b = 0x05 ∨ b = 0x06 := by
  rw [not_reservedOpcode_iff] at h
  bv_omega

/-- The command that the fields of a frame give, by its opcode; `decodeFrame_defined` ties it to the decoder. -/
def commandOf (f : Frame) : Instr :=
  if byteAt f 0 = 0x01 then
    .init (fieldCtr32 f) ((f.drop 7).take (fieldKlen f)) (f.drop (7 + fieldKlen f))
  else if byteAt f 0 = 0x02 then .ksb (fieldCtr32 f)
  else if byteAt f 0 = 0x03 then .enc (f.drop 9)
  else if byteAt f 0 = 0x04 then .encc (fieldCtr32 f) (f.drop 13)
  else if byteAt f 0 = 0x05 then .encs (f.drop 9)
  else .next

theorem decodeFrame_nil : decodeFrame [] = .badFrame := rfl

theorem decodeFrame_reserved {f : Frame} (hne : f ≠ []) (hop : ReservedOpcode (byteAt f 0)) :
    decodeFrame f = .illegalCommand := by
  rw [decodeFrame, if_neg (by simpa using hne), if_pos hop]

/-- A format with no payload has one length. -/
theorem header_le_and_length_eq (n m : Nat) : (m ≤ n ∧ n = m) ↔ n = m := by omega

/-- With a defined opcode, the length alone decides between the command and a bad frame. -/
theorem decodeFrame_defined {f : Frame} (hne : f ≠ []) (hop : ¬ ReservedOpcode (byteAt f 0)) :
    decodeFrame f = if legalLength f = true then .instr (commandOf f) else .badFrame := by
  simp only [decodeFrame, legalLength, headerLength, declaredPayload, commandOf]
  rcases opcode_cases hop with hb | hb | hb | hb | hb | hb
  · simp [hb, hne, Nat.add_assoc]
  · simp [hb, hne, header_le_and_length_eq]
  · simp [hb, hne]
  · simp [hb, hne]
  · simp [hb, hne]
  · simp [hb, hne, header_le_and_length_eq]

/-! ### Rejections (R83, R84) -/

theorem decodeFrame_eq_illegalCommand_iff (f : Frame) :
    decodeFrame f = .illegalCommand ↔ f ≠ [] ∧ ReservedOpcode (byteAt f 0) := by
  by_cases hne : f = []
  · simp [hne, decodeFrame_nil]
  by_cases hop : ReservedOpcode (byteAt f 0)
  · simp only [decodeFrame_reserved hne hop, hne, hop, ne_eq, not_false_eq_true, and_self]
  · rw [decodeFrame_defined hne hop]
    split_ifs <;> simp [hop]

theorem decodeFrame_eq_badFrame_iff (f : Frame) :
    decodeFrame f = .badFrame ↔ f = [] ∨ (¬ ReservedOpcode (byteAt f 0) ∧ legalLength f = false) := by
  by_cases hne : f = []
  · simp [hne, decodeFrame_nil]
  by_cases hop : ReservedOpcode (byteAt f 0)
  · simp [decodeFrame_reserved hne hop, hne, hop]
  · rw [decodeFrame_defined hne hop]
    split_ifs with hl <;> simp [hop, hne, hl]

/-- Settles O4: an empty frame, a reserved opcode, and a defined opcode with either length. -/
theorem reservedAndMalformedFramesAreRejected : Obligations.ReservedAndMalformedFramesAreRejected :=
  ⟨decodeFrame_eq_illegalCommand_iff, fun f => by
    rw [decodeFrame_eq_badFrame_iff, not_reservedOpcode_iff, and_assoc]⟩

/-! ### Decoding undoes encoding (R72 to R76, R86, R89) -/

/-- A frame with a defined opcode and its format's length decodes to the command that its fields give. -/
theorem decode_frame_of_shape {f : Frame} {i : Instr} (b : Byte) (hb : byteAt f 0 = b) (hop : ¬ ReservedOpcode b)
    (hi : commandOf f = i) (h : EncodeShape.CodeShape (.frame f)) : decode (.frame f) = some i := by
  obtain ⟨hne, hl⟩ := h
  simp only [decode, decodeFrame_defined hne (hb ▸ hop), if_pos hl, hi]

theorem commandOf_encodeK (ctr : Word) {key : List Byte} (nonce : List Byte) (h : key.length < 2 ^ 8) :
    commandOf (encodeK 0x01 ctr key nonce) = .init ctr key nonce := by
  have hb : byteAt (encodeK 0x01 ctr key nonce) 0 = 0x01 := rfl
  have hc : fieldCtr32 (encodeK 0x01 ctr key nonce) = ctr := fieldCtr32_cons ..
  have hd : (encodeK 0x01 ctr key nonce).drop 7 = key ++ nonce := rfl
  rw [commandOf, if_pos hb, fieldKlen_formatK 0x01 ctr key nonce h, hc, ← List.drop_drop, hd, List.take_left,
    List.drop_left]

theorem commandOf_encodeKsb (ctr : Word) : commandOf (0x02 :: bytes32 ctr) = .ksb ctr :=
  congrArg Instr.ksb (fieldCtr32_cons 0x02 ctr [])

theorem commandOf_encodeCD (ctr : Word) (data : List Byte) : commandOf (encodeCD 0x04 ctr data) = .encc ctr data :=
  congrArg (Instr.encc · data) (fieldCtr32_cons 0x04 ctr _)

/-- Settles O2: each encoding has its format's shape, and the fields of its frame are the operands. -/
theorem decodeOfEncodeIsTheInstruction : Obligations.DecodeOfEncodeIsTheInstruction := by
  intro i h
  cases i with
  | init ctr key nonce =>
    have hk : key.length < 2 ^ 8 := by simp_all [Instr.wf, fitsLen8]
    exact decode_frame_of_shape 0x01 rfl (by decide) (commandOf_encodeK ctr nonce hk) (EncodeShape.init ctr key nonce h)
  | ksb ctr => exact decode_frame_of_shape 0x02 rfl (by decide) (commandOf_encodeKsb ctr) (EncodeShape.ksb ctr h)
  | enc data => exact decode_frame_of_shape 0x03 rfl (by decide) rfl (EncodeShape.enc data h)
  | encc ctr data =>
    exact decode_frame_of_shape 0x04 rfl (by decide) (commandOf_encodeCD ctr data) (EncodeShape.encc ctr data h)
  | encs data => exact decode_frame_of_shape 0x05 rfl (by decide) rfl (EncodeShape.encs data h)
  | next => exact decode_frame_of_shape 0x06 rfl (by decide) rfl (EncodeShape.next h)
  | qc0 | qc1 | qc2 | qc3 | qd0 | qd1 | qd2 | qd3 => rfl

/-! ### Encoding undoes decoding (R79, R84, R86, R89) -/

/-- The counter field, written out, is bytes 1 to 4 (R79). -/
theorem bytes32_fieldCtr32 {f : Frame} (h : 5 ≤ f.length) : bytes32 (fieldCtr32 f) ++ f.drop 5 = f.drop 1 := by
  rw [fieldCtr32, bytes32_le32, ← take_four_drop f 1 h, show f.drop 5 = (f.drop 1).drop 4 by rw [List.drop_drop],
    List.take_append_drop]

/-- A length field is a 64-bit number (R79). -/
theorem fieldLen64_lt (f : Frame) (p : Nat) : fieldLen64 f p < 2 ^ 64 :=
  calc fieldLen64 f p < 256 ^ ((f.drop p).take 8).length := leNat_lt _
    _ ≤ 256 ^ 8 := Nat.pow_le_pow_right (by decide) (List.length_take_le ..)
    _ = 2 ^ 64 := by decide

/-- A length field, written out, is the eight bytes it was read from (R79). -/
theorem natBytes_fieldLen64 {f : Frame} {p : Nat} (h : p + 8 ≤ f.length) :
    natBytes 8 (fieldLen64 f p) ++ f.drop (p + 8) = f.drop p := by
  have hlen : ((f.drop p).take 8).length = 8 := by simp; omega
  have hbytes := natBytes_leNat ((f.drop p).take 8)
  rw [hlen] at hbytes
  rw [fieldLen64, hbytes, ← List.drop_drop, List.take_append_drop]

/-- The data behind a length field that says its length can be encoded (R75, R76). -/
theorem fitsLen64_drop {f : Frame} {n p : Nat} (hl : f.length = n + fieldLen64 f p) : fitsLen64 (f.drop n) = true := by
  have := fieldLen64_lt f p
  simp only [fitsLen64, List.length_drop, decide_eq_true_eq]
  omega

/-- A frame is its opcode and the rest. -/
theorem opcode_cons_drop {f : Frame} (h : 0 < f.length) : byteAt f 0 :: f.drop 1 = f := (drop_eq_byteAt_cons h).symm

theorem encodeK_fields {f : Frame} (h7 : 7 ≤ f.length) (hl : f.length = 7 + fieldKlen f + fieldNlen f) :
    encodeK (byteAt f 0) (fieldCtr32 f) ((f.drop 7).take (fieldKlen f)) (f.drop (7 + fieldKlen f)) = f := by
  have hk : ((f.drop 7).take (fieldKlen f)).length = fieldKlen f := by simp; omega
  have hn : (f.drop (7 + fieldKlen f)).length = fieldNlen f := by simp; omega
  have hk5 : BitVec.ofNat 8 (fieldKlen f) = byteAt f 5 := by simp [fieldKlen]
  have hn6 : BitVec.ofNat 8 (fieldNlen f) = byteAt f 6 := by simp [fieldNlen]
  rw [encodeK, hk, hn, hk5, hn6, ← List.drop_drop, List.take_append_drop, ← drop_eq_byteAt_cons (by omega),
    ← drop_eq_byteAt_cons (by omega), bytes32_fieldCtr32 (by omega), opcode_cons_drop (by omega)]

theorem encodeD_fields {f : Frame} (h9 : 9 ≤ f.length) (hl : f.length = 9 + fieldLen64 f 1) :
    encodeD (byteAt f 0) (f.drop 9) = f := by
  have hn : (f.drop 9).length = fieldLen64 f 1 := by simp; omega
  rw [encodeD, hn, natBytes_fieldLen64 h9, opcode_cons_drop (by omega)]

theorem encodeCD_fields {f : Frame} (h13 : 13 ≤ f.length) (hl : f.length = 13 + fieldLen64 f 5) :
    encodeCD (byteAt f 0) (fieldCtr32 f) (f.drop 13) = f := by
  have hn : (f.drop 13).length = fieldLen64 f 5 := by simp; omega
  rw [encodeCD, hn, natBytes_fieldLen64 h13, bytes32_fieldCtr32 (by omega), opcode_cons_drop (by omega)]

/-- What a frame decodes to is well formed, and its encoding is the frame. -/
theorem encode_of_decodeFrame {f : Frame} {i : Instr} (h : decodeFrame f = .instr i) :
    i.wf = true ∧ encode i = .frame f := by
  rcases decodeFrame_instr h with ⟨hb, hl, rfl⟩ | ⟨hb, hl, rfl⟩ | ⟨hb, h7, hl, rfl⟩ | ⟨hb, h9, hl, rfl⟩ |
    ⟨hb, h9, hl, rfl⟩ | ⟨hb, h13, hl, rfl⟩
  · have hf := opcode_cons_drop (f := f) (by omega)
    rw [hb, List.drop_of_length_le (by omega)] at hf
    exact ⟨rfl, congrArg Code.frame hf⟩
  · have hf := bytes32_fieldCtr32 (f := f) (by omega)
    rw [List.drop_of_length_le (by omega), List.append_nil] at hf
    refine ⟨rfl, congrArg Code.frame ?_⟩
    rw [hf, ← hb, opcode_cons_drop (by omega)]
  · have hk : fieldKlen f < 2 ^ 8 := (byteAt f 5).isLt
    have hn : fieldNlen f < 2 ^ 8 := (byteAt f 6).isLt
    refine ⟨?_, congrArg Code.frame (hb ▸ encodeK_fields h7 hl)⟩
    simp [Instr.wf, fitsLen8]
    omega
  · exact ⟨fitsLen64_drop (p := 1) hl, congrArg Code.frame (hb ▸ encodeD_fields h9 hl)⟩
  · exact ⟨fitsLen64_drop (p := 1) hl, congrArg Code.frame (hb ▸ encodeD_fields h9 hl)⟩
  · exact ⟨fitsLen64_drop (p := 5) hl, congrArg Code.frame (hb ▸ encodeCD_fields h13 hl)⟩

/-- What an index-table word decodes to is well formed, and its encoding is the word (R89). -/
theorem encode_of_decodeEntry {w : BitVec 16} {i : Instr} (h : decodeEntry w = some i) :
    i.wf = true ∧ encode i = .entry w := by
  unfold decodeEntry at h
  split_ifs at h with hw hw hw hw hw hw hw hw <;> cases h <;> exact ⟨rfl, congrArg Code.entry hw.symm⟩

/-- `decode` answers on a frame only what the frame decoder answers. -/
theorem decode_frame_eq_some {f : Frame} {i : Instr} (h : decode (.frame f) = some i) : decodeFrame f = .instr i := by
  cases hd : decodeFrame f <;> simp_all [decode]

/-- Settles O3: frame by frame and entry by entry. -/
theorem encodeOfDecodeIsTheWords : Obligations.EncodeOfDecodeIsTheWords := by
  intro c i h
  cases c with
  | frame f => exact encode_of_decodeFrame (decode_frame_eq_some h)
  | entry w => exact encode_of_decodeEntry h

/-! ### Worked encodings -/

/-- Settles O1: the decoder is evaluated on each word. -/
theorem writtenOutWordsDecode : Obligations.WrittenOutWordsDecode := by
  unfold Obligations.WrittenOutWordsDecode
  decide

end Sys2Proof.Proofs

/-! SUPPORT. Every frame on the response channel stays a response of format R (R77, R85, R211). -/

namespace Sys2Proof.Proofs

open Sys2Proof.Machine Sys2Proof.Safety Sys2Proof.Laws

/-! ### Frames of responses (R77) -/

/-- The payload's length fits RLEN64; `responseWellFormed_frame` says what it is for. -/
def PayloadFits : Response → Prop
  | .ok payload => payload.length < 2 ^ 64
  | .error _ => True

/-- The status byte of an error is not a reserved one (R85, R87). -/
theorem status_toNat_le (e : ErrorCode) : e.status.toNat ≤ 6 := by
  cases e <;> decide

/-- The frame of a response whose payload fits is well formed. -/
theorem responseWellFormed_frame {r : Response} (h : PayloadFits r) : ResponseWellFormed r.frame := by
  cases r with
  | ok payload =>
    have hlen : (Response.ok payload).frame.length = 9 + payload.length := by simp [Response.frame]; omega
    have hfield : fieldLen64 (Response.ok payload).frame 1 = payload.length := fieldLen64_append [0x00] _ payload h
    have hstatus : byteAt (Response.ok payload).frame 0 = 0x00 := rfl
    exact ⟨by omega, by simp [hstatus], by omega, fun hs => absurd hstatus hs⟩
  | error e => exact ⟨le_rfl, status_toNat_le e, rfl, fun _ => rfl⟩

/-! ### The payloads that instructions answer with (R88) -/

/-- A guarded command's response fits if its payload does. -/
theorem guarded_fits {v after : View} {past : Bool} {payload : List Byte} (h : payload.length < 2 ^ 64) :
    ∀ r ∈ (v.guarded past payload after).1, PayloadFits r := by
  unfold View.guarded
  split_ifs <;> rintro r ⟨⟩
  · trivial
  · trivial
  · exact h

/-- The response of a well-formed instruction fits: a keystream block has 64 bytes, other payloads the data's length. -/
theorem effect_fits {i : Instr} (hi : i.wf = true) (v : View) : ∀ r ∈ (effect i v).1, PayloadFits r := by
  cases i with
  | init ctr key nonce =>
    simp only [effect]
    split_ifs <;> rintro r ⟨⟩
    · trivial
    · trivial
    · exact Nat.two_pow_pos 64
  | ksb | next => exact guarded_fits (by simp)
  | enc data | encc _ data | encs data => exact guarded_fits (by simpa [Instr.wf, fitsLen64] using hi)
  | qc0 | qc1 | qc2 | qc3 | qd0 | qd1 | qd2 | qd3 => rintro r ⟨⟩

/-- The response to a frame fits: what the frame decodes to is well formed. -/
theorem frameEffect_fits (f : Frame) (v : View) : ∀ r ∈ (frameEffect f v).1, PayloadFits r := by
  unfold frameEffect
  cases hd : decodeFrame f with
  | instr i => exact effect_fits (encode_of_decodeFrame hd).1 v
  | illegalCommand | badFrame => rintro r ⟨⟩; trivial

/-! ### The step -/

/-- No step of the engine answers (R140 to R145). -/
theorem engineDo_rspOut (a : EngineAct) (s : State) : (engineDo a s).rspOut = s.rspOut := by
  cases a <;> simp [engineDo]

/-- An effect whose response fits keeps the response channel well formed. -/
theorem HasEffect.responsesWellFormed {s t : State} {e : Option Response × View} (he : HasEffect s t e)
    (hfits : ∀ r ∈ e.1, PayloadFits r) (hs : ResponsesWellFormed s) : ResponsesWellFormed t := by
  intro fr hfr
  rw [he.rspOut, List.mem_append] at hfr
  rcases hfr with hold | hnew
  · exact hs fr hold
  · obtain ⟨r, hr, rfl⟩ : ∃ r, e.1 = some r ∧ r.frame = fr := by simpa using hnew
    exact responseWellFormed_frame (hfits r hr)

/-- Settles O40: a step adds at most the response to a frame, and its payload's length fits the length field. -/
theorem responsesStayWellFormed : Obligations.ResponsesStayWellFormed := by
  intro s t hs h
  rcases step_cases s with ⟨-, -, hstep⟩ | ⟨f, rest, -, -, hstep⟩ | ⟨a, -, -, hstep⟩
  · cases hstep.symm.trans h
    exact hs
  · obtain ⟨u, hu, heff⟩ := stepFrame_effect f { s with cmdIn := rest }
    cases (hstep.trans hu).symm.trans h
    exact heff.responsesWellFormed (frameEffect_fits f _) hs
  · cases hstep.symm.trans h
    rw [ResponsesWellFormed, engineDo_rspOut]
    exact hs

end Sys2Proof.Proofs

/-! SUPPORT. The 32-bit primitives: addition wraps, exclusive-or cancels (R101, R102, R105), and a rotation moves every bit
to a place of its own (R103, R104). -/

namespace Sys2Proof.Proofs

open Sys2Proof.Machine

/-! ### Addition and exclusive-or (R101, R102, R105) -/

theorem add32_toNat (x y : Word) : (add32 x y).toNat = (x.toNat + y.toNat) % 2 ^ 32 := BitVec.toNat_add x y

theorem add32_comm (x y : Word) : add32 x y = add32 y x := BitVec.add_comm x y

theorem add32_assoc (x y z : Word) : add32 (add32 x y) z = add32 x (add32 y z) := BitVec.add_assoc x y z

@[simp] theorem sub32_add32 (x y : Word) : sub32 (add32 x y) y = x := BitVec.add_sub_cancel x y

@[simp] theorem add32_sub32 (x y : Word) : add32 (sub32 x y) y = x := BitVec.sub_add_cancel x y

theorem xor32_getLsbD (x y : Word) (i : Nat) : (xor32 x y).getLsbD i = (x.getLsbD i != y.getLsbD i) :=
  BitVec.getLsbD_xor

@[simp] theorem xor32_xor32 (x y : Word) : xor32 (xor32 x y) y = x := by
  rw [xor32, xor32, BitVec.xor_assoc, BitVec.xor_self, BitVec.xor_zero]

/-- Settles O18: each clause is a law of the 32-bit words. -/
theorem additionWrapsAndXorCancels : Obligations.AdditionWrapsAndXorCancels :=
  ⟨add32_toNat, fun x y z => ⟨add32_comm x y, add32_assoc x y z⟩, fun x y => ⟨sub32_add32 x y, add32_sub32 x y⟩,
    xor32_getLsbD, xor32_xor32⟩

/-! ### Rotation (R103, R104) -/

/-- Bit `i` of the result is the bit `n` places below it, around the end of the word. -/
theorem rotl32_getLsbD (x : Word) {n i : Nat} (hn : n ≤ 31) (hi : i < 32) :
    (rotl32 x n).getLsbD i = x.getLsbD ((i + (32 - n)) % 32) := by
  simp only [rotl32, BitVec.getLsbD_or, BitVec.getLsbD_shiftLeft, BitVec.getLsbD_ushiftRight]
  by_cases h : i < n
  · have hsource : (i + (32 - n)) % 32 = 32 - n + i := by omega
    simp [h, hsource]
  · have hsource : (i + (32 - n)) % 32 = i - n := by omega
    have habove : x.getLsbD (32 - n + i) = false := BitVec.getLsbD_of_ge x _ (by omega)
    simp [h, hi, hsource, habove]

/-- The bit motion as R103 words it. -/
theorem rotl32_getLsbD_add_mod (x : Word) {n i : Nat} (hn : n ≤ 31) (hi : i < 32) :
    (rotl32 x n).getLsbD ((i + n) % 32) = x.getLsbD i := by
  rw [rotl32_getLsbD x hn (Nat.mod_lt _ (by decide))]
  congr 1
  omega

/-- Two rotations by amounts that add up to the width undo each other: each bit is back at its place. -/
theorem rotl32_rotl32_of_add_eq (x : Word) {m n : Nat} (hm : m ≤ 31) (hn : n ≤ 31) (h : m + n = 32) :
    rotl32 (rotl32 x m) n = x := by
  refine BitVec.eq_of_getLsbD_eq fun i hi => ?_
  rw [rotl32_getLsbD _ hn hi, rotl32_getLsbD x hm (Nat.mod_lt _ (by decide))]
  congr 1
  omega

theorem rotr32_rotl32 (x : Word) {n : Nat} (h1 : 1 ≤ n) (h31 : n ≤ 31) : rotr32 (rotl32 x n) n = x :=
  rotl32_rotl32_of_add_eq x h31 (by omega) (by omega)

theorem rotl32_rotr32 (x : Word) {n : Nat} (h1 : 1 ≤ n) (h31 : n ≤ 31) : rotl32 (rotr32 x n) n = x :=
  rotl32_rotl32_of_add_eq x (by omega) h31 (by omega)

/-- The places of a word shifted around its end are the same places in another order. -/
theorem range_map_add_mod_perm (m k : Nat) : ((List.range m).map fun i => (i + k) % m).Perm (List.range m) := by
  have hrotate : ((List.range m).map fun i => (i + k) % m) = (List.range m).rotate k :=
    List.ext_getElem (by simp) fun i _ _ => by simp [List.getElem_rotate]
  exact hrotate ▸ List.rotate_perm _ k

/-- No bit is lost: the bits of the result are those of the operand, in another order. -/
theorem rotl32_countP (x : Word) {n : Nat} (hn : n ≤ 31) :
    (List.range 32).countP (fun i => (rotl32 x n).getLsbD i) = (List.range 32).countP (fun i => x.getLsbD i) :=
  calc (List.range 32).countP (fun i => (rotl32 x n).getLsbD i)
      = (List.range 32).countP (fun i => x.getLsbD ((i + (32 - n)) % 32)) :=
        List.countP_congr fun i hi => by rw [rotl32_getLsbD x hn (List.mem_range.mp hi)]
    _ = ((List.range 32).map fun i => (i + (32 - n)) % 32).countP (fun i => x.getLsbD i) := by
        rw [List.countP_map]; rfl
    _ = (List.range 32).countP (fun i => x.getLsbD i) := (range_map_add_mod_perm 32 (32 - n)).countP_eq _

/-- The shift-and-or of R103: only the left shift can pass the width. -/
theorem rotl32_toNat (x : Word) (n : Nat) :
    (rotl32 x n).toNat = ((x.toNat * 2 ^ n) ||| (x.toNat / 2 ^ (32 - n))) % 2 ^ 32 := by
  have hright : x.toNat / 2 ^ (32 - n) < 2 ^ 32 := (Nat.div_le_self _ _).trans_lt x.isLt
  rw [Nat.or_mod_two_pow, Nat.mod_eq_of_lt hright, rotl32, BitVec.toNat_or, BitVec.toNat_shiftLeft,
    BitVec.toNat_ushiftRight, Nat.shiftLeft_eq, Nat.shiftRight_eq_div_pow]

/-- By 16 the two halves change places: below the shifted word there is room for the upper half. -/
theorem rotl32_sixteen_toNat (x : Word) :
    (rotl32 x 16).toNat = x.toNat % 2 ^ 16 * 2 ^ 16 + x.toNat / 2 ^ 16 := by
  have hupper : x.toNat / 2 ^ 16 < 2 ^ 16 := by have := x.isLt; omega
  have hor : x.toNat * 2 ^ 16 ||| x.toNat / 2 ^ 16 = x.toNat * 2 ^ 16 + x.toNat / 2 ^ 16 := by
    rw [← Nat.shiftLeft_eq, Nat.shiftLeft_add_eq_or_of_lt hupper]
  rw [rotl32_toNat, hor]
  omega

/-- Settles O19: by the place each bit comes from, and the shift-and-or on numbers. -/
theorem rotationMovesEveryBit : Obligations.RotationMovesEveryBit := by
  intro x n h1 h31
  refine ⟨rotl32_toNat x n, fun i hi => rotl32_getLsbD_add_mod x h31 hi, rotl32_countP x h31, rotr32_rotl32 x h1 h31,
    rotl32_rotr32 x h1 h31, ?_⟩
  rintro rfl
  exact rotl32_sixteen_toNat x

end Sys2Proof.Proofs

/-! SUPPORT. The quarter-round and its application through the index table: QRINV undoes each of its steps (R112), and a
phase is determined by what it leaves in its four groups, which share no word (R113, R114). -/

namespace Sys2Proof.Proofs

open Sys2Proof.Machine Sys2Proof.Safety Sys2Proof.Laws

/-! ### QRINV (R106, R112) -/

/-- The old z of an ARX step, from the new x and the new z. -/
theorem xor32_rotr32_arx (x y z : Word) {r : Nat} (h1 : 1 ≤ r) (h31 : r ≤ 31) :
    xor32 (rotr32 (arx x y z r).2 r) (arx x y z r).1 = z := by
  simp only [arx, rotr32_rotl32 _ h1 h31, xor32_xor32]

/-- The old x of an ARX step, from the new x and y. -/
theorem sub32_arx (x y z : Word) (r : Nat) : sub32 (arx x y z r).1 y = x := sub32_add32 x y

/-- An ARX step on the operands that undoing it recovers gives back its results. -/
theorem arx_undone (x y z : Word) {r : Nat} (h1 : 1 ≤ r) (h31 : r ≤ 31) :
    arx (sub32 x y) y (xor32 (rotr32 z r) x) r = (x, z) := by
  simp only [arx, add32_sub32, xor32_xor32, rotl32_rotr32 _ h1 h31]

/-- QRINV undoes the four ARX steps of QR, the last one first. -/
theorem qrInv_qr (q : Quad) : qrInv (qr q) = q := by
  simp [qrInv, qr, xor32_rotr32_arx, sub32_arx]

/-- QR takes the four steps that QRINV undid, the one undone last first. -/
theorem qr_qrInv (q : Quad) : qr (qrInv q) = q := by
  simp [qr, qrInv, arx_undone]

/-- Settles O16: an ARX step is undone from its results, and the quarter-round is four of them. -/
theorem quarterRoundIsABijection : Obligations.QuarterRoundIsABijection :=
  ⟨qrInv_qr, qr_qrInv, by decide +kernel⟩

/-! ### The micro-operations (R115 to R122) -/

/-- The micro-operation of a lane applies the quarter-round to the words of its entry's group, and to nothing else. -/
theorem laneInstr_appliesQuarterRound (ph : Phase) (l : Fin 4) {g : IndexGroup} (hg : group (tableIndex ph l) = g) :
    AppliesQuarterRound (laneInstr ph l) g.a g.b g.c g.d := by
  subst hg
  exact fun s => ⟨applyEntry (tableIndex ph l) s, exec_laneInstr ph l s, rfl, readGroup_qrApply s.x _,
    qrApply_other s.x _⟩

/-- Settles O13: the four lanes of a column phase. -/
theorem columnEntriesApplyTheQuarterRound : Obligations.ColumnEntriesApplyTheQuarterRound :=
  ⟨laneInstr_appliesQuarterRound .col 0 group_zero, laneInstr_appliesQuarterRound .col 1 group_one,
    laneInstr_appliesQuarterRound .col 2 group_two, laneInstr_appliesQuarterRound .col 3 group_three⟩

/-- Settles O14: the four lanes of a diagonal phase. -/
theorem diagonalEntriesApplyTheQuarterRound : Obligations.DiagonalEntriesApplyTheQuarterRound :=
  ⟨laneInstr_appliesQuarterRound .diag 0 group_four, laneInstr_appliesQuarterRound .diag 1 group_five,
    laneInstr_appliesQuarterRound .diag 2 group_six, laneInstr_appliesQuarterRound .diag 3 group_seven⟩

/-! ### The groups of a phase (R114) -/

/-- The four indices of the group that a lane of a phase applies the quarter-round to. -/
def laneIndices (ph : Phase) (l : Fin 4) : List (Fin 16) :=
  let g := group (tableIndex ph l)
  [g.a, g.b, g.c, g.d]

/-- The groups of a phase cover the sixteen words, each once. -/
theorem laneIndices_perm (ph : Phase) : ([0, 1, 2, 3].flatMap (laneIndices ph)).Perm (List.finRange 16) := by
  cases ph <;> decide

/-- Two lanes of a phase share no word. -/
theorem laneIndices_disjoint (ph : Phase) {k l : Fin 4} (h : k ≠ l) :
    ∀ i ∈ laneIndices ph k, i ∉ laneIndices ph l := by
  revert k l
  cases ph <;> decide

/-- A word outside a lane's group is left as it was. -/
theorem qrApply_getElem_of_not_mem (x : Block) (ph : Phase) (l : Fin 4) {i : Fin 16} (h : i ∉ laneIndices ph l) :
    (qrApply x (tableIndex ph l))[i] = x[i] := by
  simp only [laneIndices, List.mem_cons, List.not_mem_nil, or_false, not_or] at h
  obtain ⟨ha, hb, hc, hd⟩ := h
  exact qrApply_other x _ i ha hb hc hd

/-- The words of a lane's group are equal in two blocks exactly when the group reads the same in both. -/
theorem readGroup_eq_iff (x y : Block) (ph : Phase) (l : Fin 4) :
    readGroup x (group (tableIndex ph l)) = readGroup y (group (tableIndex ph l)) ↔
      ∀ i ∈ laneIndices ph l, x[i] = y[i] := by
  simp [readGroup, laneIndices]

/-- A lane leaves the groups of the other lanes of its phase as they were. -/
theorem readGroup_qrApply_of_ne (x : Block) (ph : Phase) {k l : Fin 4} (h : l ≠ k) :
    readGroup (qrApply x (tableIndex ph k)) (group (tableIndex ph l)) = readGroup x (group (tableIndex ph l)) :=
  (readGroup_eq_iff ..).2 fun i hi => qrApply_getElem_of_not_mem x ph k (laneIndices_disjoint ph h i hi)

/-- A block is determined by what the four groups of a phase read in it. -/
theorem eq_of_readGroup_eq (ph : Phase) {x y : Block}
    (h : ∀ l, readGroup x (group (tableIndex ph l)) = readGroup y (group (tableIndex ph l))) : x = y := by
  refine Vector.ext fun i hi => ?_
  have hcover := (laneIndices_perm ph).mem_iff.2 (List.mem_finRange ⟨i, hi⟩)
  obtain ⟨l, -, hl⟩ := List.mem_flatMap.1 hcover
  exact (readGroup_eq_iff x y ph l).1 (h l) ⟨i, hi⟩ hl

/-! ### Lanes one after another (R114) -/

/-- The applications of a phase's lanes, in the order of the list. -/
def applyLanes (ph : Phase) (ls : List (Fin 4)) (x : Block) : Block := ls.foldl (fun y l => qrApply y (tableIndex ph l)) x

/-- After different lanes of a phase, each group holds the quarter-round of what it held at the start if its lane was
among them, and is as it was if not. -/
theorem readGroup_applyLanes (ph : Phase) (l : Fin 4) {ls : List (Fin 4)} (hls : ls.Nodup) (x : Block) :
    readGroup (applyLanes ph ls x) (group (tableIndex ph l)) =
      if l ∈ ls then qr (readGroup x (group (tableIndex ph l))) else readGroup x (group (tableIndex ph l)) := by
  induction ls generalizing x with
  | nil => rfl
  | cons k ls ih =>
    obtain ⟨hk, hls⟩ := List.nodup_cons.1 hls
    rw [show applyLanes ph (k :: ls) x = applyLanes ph ls (qrApply x (tableIndex ph k)) from rfl, ih hls]
    by_cases h : l = k
    · subst h
      simp [hk, readGroup_qrApply]
    · simp [h, readGroup_qrApply_of_ne x ph h]

/-- Different lanes of a phase give the same block in any order. -/
theorem applyLanes_perm (ph : Phase) {ls ms : List (Fin 4)} (h : ls.Perm ms) (hls : ls.Nodup) (x : Block) :
    applyLanes ph ls x = applyLanes ph ms x :=
  eq_of_readGroup_eq ph fun l => by
    simp only [readGroup_applyLanes ph l hls, readGroup_applyLanes ph l (h.nodup_iff.1 hls), h.mem_iff]

/-- All four lanes at once: each group holds the quarter-round of what it held at the start. -/
theorem readGroup_applyLanes_all (ph : Phase) (l : Fin 4) (x : Block) :
    readGroup (applyLanes ph [0, 1, 2, 3] x) (group (tableIndex ph l)) = qr (readGroup x (group (tableIndex ph l))) := by
  rw [readGroup_applyLanes ph l (by decide), if_pos (by revert l; decide)]

theorem colRound_eq_applyLanes (x : Block) : colRound x = applyLanes .col [0, 1, 2, 3] x := rfl

theorem diagRound_eq_applyLanes (x : Block) : diagRound x = applyLanes .diag [0, 1, 2, 3] x := rfl

/-! ### Lanes of different phases (R114) -/

/-- A lane of a column phase and a lane of a diagonal phase share one index. -/
theorem laneIndices_share_one (k l : Fin 4) :
    ((laneIndices .col k).filter fun i => decide (i ∈ laneIndices .diag l)).length = 1 := by
  revert k l
  decide

/-- Sixteen words that are all 1. -/
def onesBlock : Block := Vector.replicate 16 1

/-- On `onesBlock` no lane of a column phase commutes with a lane of a diagonal phase. -/
theorem onesBlock_phases_do_not_commute (k l : Fin 4) :
    qrApply (qrApply onesBlock (tableIndex .col k)) (tableIndex .diag l) ≠
      qrApply (qrApply onesBlock (tableIndex .diag l)) (tableIndex .col k) := by
  revert k l
  decide +kernel

/-- The k-th index of a group is in row k. -/
theorem group_rows (t : Fin 8) :
    (group t).a.val / 4 = 0 ∧ (group t).b.val / 4 = 1 ∧ (group t).c.val / 4 = 2 ∧ (group t).d.val / 4 = 3 := by
  revert t
  decide

/-- Settles O15: what the four groups of a phase hold determines the block, and no order of the lanes changes it. -/
theorem applicationsOfAPhaseCommute : Obligations.ApplicationsOfAPhaseCommute := by
  refine ⟨laneIndices_perm, fun ph k l x hkl => ?_, fun ls x hls => ?_, fun l x => ?_, fun k l => ?_, group_rows⟩
  · exact applyLanes_perm ph (.swap l k []) (by simpa using hkl) x
  · have hnodup : ls.Nodup := hls.nodup_iff.2 (by decide)
    exact ⟨applyLanes_perm .col hls hnodup x, applyLanes_perm .diag hls hnodup x⟩
  · rw [colRound_eq_applyLanes, diagRound_eq_applyLanes]
    exact ⟨readGroup_applyLanes_all .col l x, readGroup_applyLanes_all .diag l x⟩
  · exact ⟨laneIndices_share_one k l, onesBlock, onesBlock_phases_do_not_commute k l⟩

end Sys2Proof.Proofs

/-! SUPPORT. A step of the engine, said once: where it takes the sequencer, what it leaves, which step the machine itself takes
(R140 to R146), and from these the machine's own steps inside a block. -/

namespace Sys2Proof.Proofs

open Sys2Proof.Machine Sys2Proof.Safety Sys2Proof.Laws

/-! ### What a step of the engine changes -/

/-- Behind a diagonal phase that is not the last the next double-round begins (R142). -/
theorem afterBarrier_diag_of_lt {dr : Fin 10} (h : dr.val < 9) :
    afterBarrier dr .diag = .round ⟨dr.val + 1, by omega⟩ .col noLanes := dif_pos h

/-- Behind the last phase the finalisation is due (R142). -/
theorem afterBarrier_diag_of_not_lt {dr : Fin 10} (h : ¬ dr.val < 9) : afterBarrier dr .diag = .final := dif_neg h

/-- Where a step of the engine takes the sequencer; `engineDo_eseq` ties it to the model (R140 to R145). -/
def nextEseq : EngineAct → Eseq → Eseq
  | .start, _ => .round 0 .col noLanes
  | .lane l, .round dr ph done => .round dr ph (done.set l true)
  | .barrier, .round dr ph _ => afterBarrier dr ph
  | .fadd, _ => .serial
  | .ser, _ => .done
  | .take, _ => .idle
  | .lane _, e => e
  | .barrier, e => e

/-- E-LANE inside a phase (R141). -/
theorem engineDo_lane {s : State} {dr : Fin 10} {ph : Phase} {done : Lanes} (l : Fin 4) (h : s.eseq = .round dr ph done) :
    engineDo (.lane l) s = { s with x := qrApply s.x (tableIndex ph l), eseq := .round dr ph (done.set l true) } := by
  simp [engineDo, engineLane, markLane, applyEntry, h]

/-- E-BARRIER inside a phase (R142). -/
theorem engineDo_barrier {s : State} {dr : Fin 10} {ph : Phase} {done : Lanes} (h : s.eseq = .round dr ph done) :
    engineDo .barrier s = { s with eseq := afterBarrier dr ph } := by
  simp [engineDo, engineBarrier, h]

/-- The sequencer after a step of the engine is a function of the sequencer before it. -/
theorem engineDo_eseq (a : EngineAct) (s : State) : (engineDo a s).eseq = nextEseq a s.eseq := by
  cases a with
  | start | fadd | ser | take => simp [engineDo, nextEseq]
  | lane l =>
    cases h : s.eseq with
    | round dr ph done => rw [engineDo_lane l h, nextEseq]
    | idle | final | serial | done => simp [engineDo, engineLane, nextEseq, h]
  | barrier =>
    cases h : s.eseq with
    | round dr ph done => rw [engineDo_barrier h, nextEseq]
    | idle | final | serial | done => simp [engineDo, engineBarrier, nextEseq, h]

/-- The second state is the first but for X, Z, KS and ESEQ. -/
def EngineFrame (s t : State) : Prop := t = { s with x := t.x, z := t.z, ks := t.ks, eseq := t.eseq }

theorem EngineFrame.refl (s : State) : EngineFrame s s := rfl

theorem EngineFrame.trans {s t u : State} (hst : EngineFrame s t) (htu : EngineFrame t u) : EngineFrame s u := by
  rw [EngineFrame, htu, hst]

/-- A step of the engine changes nothing but X, Z, KS and ESEQ. -/
theorem engineDo_frame (a : EngineAct) (s : State) : EngineFrame s (engineDo a s) := by
  cases a with
  | start | fadd | ser | take => simp [EngineFrame, engineDo, engineStart, engineFadd, engineSer, engineTake]
  | lane l =>
    cases h : s.eseq with
    | round dr ph done => rw [engineDo_lane l h, EngineFrame]
    | idle | final | serial | done => simp only [engineDo, engineLane, h]; exact .refl s
  | barrier =>
    cases h : s.eseq with
    | round dr ph done => rw [engineDo_barrier h, EngineFrame]
    | idle | final | serial | done => simp only [engineDo, engineBarrier, h]; exact .refl s

/-- The words of S stay while the engine runs (R130, R143). -/
theorem EngineFrame.sWords_eq {s t : State} (h : EngineFrame s t) : sWords t = sWords s := by
  rw [h]; rfl

/-- A run of the engine changes nothing but X, Z, KS and ESEQ. -/
theorem engineRun_frame (acts : List EngineAct) (s : State) : EngineFrame s (engineRun acts s) := by
  induction acts generalizing s with
  | nil => exact .refl s
  | cons a rest ih => exact (engineDo_frame a s).trans (ih _)

/-- The steps other than E-START, each where it is enabled (R141 to R145). -/
theorem enabled_cases {a : EngineAct} {e : Eseq} (h : a.enabled e = true) (hs : a ≠ .start) :
    (∃ l dr ph done, a = .lane l ∧ e = .round dr ph done ∧ done[l] = false) ∨
    (∃ dr ph, a = .barrier ∧ e = .round dr ph allLanes) ∨
    (a = .fadd ∧ e = .final) ∨ (a = .ser ∧ e = .serial) ∨ (a = .take ∧ e = .done) := by
  unfold EngineAct.enabled at h
  split at h
  case h_1 => exact absurd rfl hs
  case h_2 l dr ph done => exact .inl ⟨l, dr, ph, done, rfl, rfl, by simpa using h⟩
  case h_3 dr ph done => exact .inr (.inl ⟨dr, ph, rfl, by rw [of_decide_eq_true h]⟩)
  case h_4 => exact .inr (.inr (.inl ⟨rfl, rfl⟩))
  case h_5 => exact .inr (.inr (.inr (.inl ⟨rfl, rfl⟩)))
  case h_6 => exact .inr (.inr (.inr (.inr ⟨rfl, rfl⟩)))
  case h_7 => cases h

/-! ### The step that the machine takes -/

/-- The step of the engine that the machine takes in a sequencer state: the lowest lane first (R146, assumption log 1). -/
def nextAct : Eseq → EngineAct
  | .idle => .start
  | .round _ _ done =>
    match nextLane done with
    | some l => .lane l
    | none => .barrier
  | .final => .fadd
  | .serial => .ser
  | .done => .take

/-- Inside a block the machine takes that step. -/
theorem step_busy {s : State} (h : s.eseq ≠ .idle) : step s = .next (engineDo (nextAct s.eseq) s) := by
  cases he : s.eseq with
  | idle => exact absurd he h
  | round dr ph done =>
    cases hl : nextLane done with
    | some l => simp only [step, fetch, he, fetchPhase, hl, stepLane_eq l s dr ph done he, nextAct, engineDo]
    | none => simp only [step, fetch, he, fetchPhase, hl, nextAct]
  | final | serial | done => simp only [step, fetch, he, nextAct]

/-- The machine's step is enabled, so the engine is never stuck inside a block (R147, R148). -/
theorem nextAct_enabled {e : Eseq} (h : e ≠ .idle) : nextAct e ≠ .start ∧ (nextAct e).enabled e = true := by
  cases e with
  | idle => exact absurd rfl h
  | round dr ph done =>
    cases hl : nextLane done with
    | some l => simp [nextAct, hl, EngineAct.enabled, nextLane_some hl]
    | none =>
      obtain rfl := nextLane_none hl
      exact ⟨by simp [nextAct, hl], by simp [nextAct, hl, EngineAct.enabled]⟩
  | final | serial | done => simp [nextAct, EngineAct.enabled]

theorem laneOrder_getElem (l : Fin 4) : Config.laneOrder[l] = l := by
  revert l
  decide

/-- The lowest lane that has not finished is served next. -/
theorem nextLane_of_lowest {done : Lanes} {l : Fin 4} (hl : done[l] = false) (hlow : ∀ k < l, done[k] = true) :
    nextLane done = some l := by
  refine List.find?_eq_some_iff_getElem.2 ⟨by simpa using hl, l.val, l.isLt, laneOrder_getElem l, fun j hj => ?_⟩
  have hj4 : j < 4 := hj.trans l.isLt
  have hdone : done[j] = true := hlow ⟨j, hj4⟩ hj
  rw [show Config.laneOrder[j] = ⟨j, hj4⟩ from laneOrder_getElem ⟨j, hj4⟩]
  simpa using hdone

/-- Settles O6: the machine takes E-LANE of that lane, and E-LANE is the entry's micro-operation and the marking. -/
theorem laneStepRunsTheTableEntry : Obligations.LaneStepRunsTheTableEntry := by
  intro s dr ph done l he hl hlow
  refine ⟨laneInstr ph l, applyEntry (tableIndex ph l) s, fetchLane_decodes ph l, exec_laneInstr ph l s, ?_⟩
  have hact : nextAct s.eseq = .lane l := by simp only [he, nextAct, nextLane_of_lowest hl hlow]
  rw [step_busy (by simp [he]), hact, engineDo_lane l he]
  rfl

/-- The barrier of a phase that has finished (R142). -/
theorem step_barrier {s : State} {dr : Fin 10} {ph : Phase} (h : s.eseq = .round dr ph allLanes) :
    step s = .next { s with eseq := afterBarrier dr ph } := by
  have hact : nextAct s.eseq = .barrier := by rw [h]; rfl
  rw [step_busy (by simp [h]), hact, engineDo_barrier h]

/-- The bytes of a serialised block are the bytes of its words, one word after the other (R136). -/
theorem serialise_toList (z : Block) : (serialise z).toList = z.toList.flatMap bytes32 := by
  have hwords : z.toList = List.ofFn fun i : Fin 16 => z[i.val] := by
    rw [← Vector.toList_ofFn, Vector.ofFn_getElem]
  rw [hwords, List.flatMap, List.map_ofFn]
  refine Vector.toList_ofFn.trans ((List.ofFn_mul (m := 16) (n := 4) _).trans ?_)
  refine congrArg List.flatten (congrArg List.ofFn (funext fun i => ?_))
  have hbyte (j : Fin 4) : byteOf (z[(i.val * 4 + j.val) / 4]'(by omega)) ((i.val * 4 + j.val) % 4) = byteOf z[i.val] j := by
    have hdiv : (i.val * 4 + j.val) / 4 = i.val := by omega
    have hmod : (i.val * 4 + j.val) % 4 = j.val := by omega
    simp only [hdiv, hmod]
  simp only [hbyte]
  rfl

/-- Settles O7: the step that each state of the sequencer enables. -/
theorem sequencerStepsInOrder : Obligations.SequencerStepsInOrder := by
  refine ⟨fun s dr h => step_barrier h, fun s dr dr' h hdr => ?_, fun s h => step_barrier h, fun s h => ?_, fun s h => ?_,
    fun s h => ?_⟩
  · have hlt : dr.val < 9 := by omega
    rw [step_barrier h, afterBarrier_diag_of_lt hlt, show dr' = ⟨dr.val + 1, by omega⟩ from Fin.ext hdr]
  · refine ⟨engineFadd s, ?_, rfl, fun i => ?_⟩
    · rw [step_busy (by simp [h]), h]; rfl
    · rw [engineFadd_z, finalAdd_getElem, add32_toNat]
  · refine ⟨engineSer s, ?_, rfl, serialise_toList s.z⟩
    rw [step_busy (by simp [h]), h]; rfl
  · rw [step_busy (by simp [h]), h]; rfl

end Sys2Proof.Proofs

/-! SUPPORT. The order of the lanes within a phase does not matter (R114), so every schedule of the engine computes PERM, BLOCK
and KSBYTES of S in the same number of steps of each kind (R147, R148); and the machine's own run is one of these schedules. -/

namespace Sys2Proof.Proofs

open Sys2Proof.Machine Sys2Proof.Laws

/-! ### The lanes that have finished -/

/-- The lanes that have finished, in the order 0 to 3. -/
def doneLanes (done : Lanes) : List (Fin 4) := [0, 1, 2, 3].filter fun l => done[l]

@[simp] theorem doneLanes_noLanes : doneLanes noLanes = [] := rfl

@[simp] theorem doneLanes_allLanes : doneLanes allLanes = [0, 1, 2, 3] := rfl

theorem doneLanes_nodup (done : Lanes) : (doneLanes done).Nodup := List.Nodup.filter _ (by decide)

theorem mem_doneLanes {done : Lanes} {l : Fin 4} : l ∈ doneLanes done ↔ done[l] = true := by
  rw [doneLanes, List.mem_filter]
  exact and_iff_right (by revert l; decide)

theorem doneLanes_length_le (done : Lanes) : (doneLanes done).length ≤ 4 := List.length_filter_le ..

/-- A lane that finishes is added to those that have finished (R141). -/
theorem doneLanes_set_perm {done : Lanes} {l : Fin 4} (h : done[l] = false) :
    (doneLanes (done.set l true)).Perm (doneLanes done ++ [l]) := by
  have hfresh : ∀ k, done[k] = true → k ≠ l := by
    rintro k hk rfl
    exact absurd (hk.symm.trans h) (by decide)
  have hnew : (doneLanes done ++ [l]).Nodup := by
    simpa [List.nodup_append, doneLanes_nodup, mem_doneLanes] using hfresh
  refine (List.perm_ext_iff_of_nodup (doneLanes_nodup _) hnew).2 fun k => ?_
  by_cases hk : k = l
  · simp [mem_doneLanes, hk]
  · have hval : l.val ≠ k.val := fun e => hk (Fin.ext e.symm)
    simp [mem_doneLanes, hk, hval]

/-- One more lane of a phase, whichever it is, applies its entry to what the others left (R114). -/
theorem applyLanes_doneLanes_set (ph : Phase) {done : Lanes} {l : Fin 4} (h : done[l] = false) (x : Block) :
    applyLanes ph (doneLanes (done.set l true)) x = qrApply (applyLanes ph (doneLanes done) x) (tableIndex ph l) := by
  rw [applyLanes_perm ph (doneLanes_set_perm h) (doneLanes_nodup _)]
  simp [applyLanes]

/-! ### What the registers hold in each state of the sequencer -/

/-- X at the start of a phase, from the words of S (R133, R134). -/
def phaseInput (dr : Fin 10) (ph : Phase) (i : Block) : Block :=
  match ph with
  | .col => doubleRounds dr.val i
  | .diag => colRound (doubleRounds dr.val i)

/-- X, Z and KS hold what the steps of the block so far compute from S; where the engine is idle, what the whole block does
(R33). -/
def Computed (s : State) : Prop :=
  match s.eseq with
  | .round dr ph done => s.x = applyLanes ph (doneLanes done) (phaseInput dr ph (sWords s))
  | .final => s.x = perm (sWords s)
  | .serial => s.x = perm (sWords s) ∧ s.z = block (sWords s)
  | .done | .idle => s.x = perm (sWords s) ∧ s.z = block (sWords s) ∧ s.ks = ksBytes (sWords s)

/-- E-START loads S (R130, R140). -/
theorem computed_engineStart (s : State) : Computed (engineStart s) := rfl

/-- All lanes of the diagonal phase complete the double-round (R132, R133). -/
theorem applyLanes_diag_phaseInput (dr : Fin 10) (i : Block) :
    applyLanes .diag [0, 1, 2, 3] (phaseInput dr .diag i) = doubleRounds (dr.val + 1) i := rfl

/-- A finished phase leaves what the barrier takes the next one to begin with (R131, R132, R142). -/
theorem computed_barrier {s : State} {dr : Fin 10} {ph : Phase} (h : s.eseq = .round dr ph allLanes) (hs : Computed s) :
    Computed { s with eseq := afterBarrier dr ph } := by
  simp only [Computed, h, doneLanes_allLanes] at hs
  cases ph with
  | col => exact hs
  | diag =>
    rw [applyLanes_diag_phaseInput] at hs
    by_cases h9 : dr.val < 9
    · rw [afterBarrier_diag_of_lt h9]
      exact hs
    · have hlast : dr.val + 1 = 10 := by omega
      rw [afterBarrier_diag_of_not_lt h9]
      exact hs.trans (by rw [hlast]; rfl)

/-- Every enabled step keeps the registers at what the block so far computes. -/
theorem computed_engineDo {a : EngineAct} {s : State} (ha : a ≠ .start) (he : a.enabled s.eseq = true) (hs : Computed s) :
    Computed (engineDo a s) := by
  rcases enabled_cases he ha with ⟨l, dr, ph, done, rfl, h, hl⟩ | ⟨dr, ph, rfl, h⟩ | ⟨rfl, h⟩ | ⟨rfl, h⟩ | ⟨rfl, h⟩
  · rw [engineDo_lane l h]
    simp only [Computed, h] at hs
    simp only [Computed, hs]
    exact (applyLanes_doneLanes_set ph hl _).symm
  · rw [engineDo_barrier h]
    exact computed_barrier h hs
  · have hwords : sWords (engineFadd s) = sWords s := (engineDo_frame .fadd s).sWords_eq
    simp only [Computed, h] at hs
    simp only [Computed, engineDo, engineFadd_eseq, engineFadd_x, engineFadd_z, hwords, hs, block, and_self]
  · have hwords : sWords (engineSer s) = sWords s := (engineDo_frame .ser s).sWords_eq
    simp only [Computed, h] at hs
    simp only [Computed, engineDo, engineSer_eseq, engineSer_x, engineSer_z, engineSer_ks, hwords, hs, ksBytes, and_self]
  · simp only [Computed, h] at hs
    exact hs

/-! ### How many steps of each kind have been taken -/

/-- The phases that have finished before this one (R33). -/
def phasesBefore (dr : Fin 10) (ph : Phase) : Nat :=
  match ph with
  | .col => 2 * dr.val
  | .diag => 2 * dr.val + 1

/-- The number of steps after E-START that a kind `p` of steps has at this place of the block; where the engine is idle, in the
whole block (R148). -/
def stepsTaken (p : EngineAct → Bool) : Eseq → Nat
  | .round dr ph done =>
    (4 * phasesBefore dr ph + (doneLanes done).length) * (p (.lane 0)).toNat + phasesBefore dr ph * (p .barrier).toNat
  | .final => 80 * (p (.lane 0)).toNat + 20 * (p .barrier).toNat
  | .serial => 80 * (p (.lane 0)).toNat + 20 * (p .barrier).toNat + (p .fadd).toNat
  | .done => 80 * (p (.lane 0)).toNat + 20 * (p .barrier).toNat + (p .fadd).toNat + (p .ser).toNat
  | .idle => 80 * (p (.lane 0)).toNat + 20 * (p .barrier).toNat + (p .fadd).toNat + (p .ser).toNat + (p .take).toNat

/-- A kind of steps that does not tell the lanes apart. -/
def LaneBlind (p : EngineAct → Bool) : Prop := ∀ l, p (.lane l) = p (.lane 0)

/-- The barrier counts itself, and begins a phase with no lane finished. -/
theorem stepsTaken_afterBarrier (p : EngineAct → Bool) (dr : Fin 10) (ph : Phase) :
    stepsTaken p (afterBarrier dr ph) = stepsTaken p (.round dr ph allLanes) + (p .barrier).toNat := by
  cases ph with
  | col =>
    simp only [afterBarrier, stepsTaken, phasesBefore, doneLanes_noLanes, doneLanes_allLanes, List.length_cons,
      List.length_nil]
    ring
  | diag =>
    by_cases h9 : dr.val < 9
    · simp only [afterBarrier_diag_of_lt h9, stepsTaken, phasesBefore, doneLanes_noLanes, doneLanes_allLanes,
        List.length_cons, List.length_nil]
      ring
    · have hlast : dr.val = 9 := by omega
      rw [afterBarrier_diag_of_not_lt h9]
      simp only [stepsTaken, phasesBefore, hlast, doneLanes_allLanes, List.length_cons, List.length_nil]
      ring

/-- Every enabled step counts itself. -/
theorem stepsTaken_nextEseq {p : EngineAct → Bool} (hp : LaneBlind p) {a : EngineAct} {e : Eseq} (ha : a ≠ .start)
    (he : a.enabled e = true) : stepsTaken p (nextEseq a e) = stepsTaken p e + (p a).toNat := by
  rcases enabled_cases he ha with ⟨l, dr, ph, done, rfl, rfl, hl⟩ | ⟨dr, ph, rfl, rfl⟩ | ⟨rfl, rfl⟩ | ⟨rfl, rfl⟩ | ⟨rfl, rfl⟩
  · have hlen : (doneLanes (done.set l true)).length = (doneLanes done).length + 1 := by
      simpa using (doneLanes_set_perm hl).length_eq
    rw [nextEseq, stepsTaken, stepsTaken, hlen, hp l]
    ring
  · exact stepsTaken_afterBarrier p dr ph
  · rfl
  · rfl
  · rfl

/-- The number of steps of any kind, after E-START. -/
def position (e : Eseq) : Nat := stepsTaken (fun _ => true) e

@[simp] theorem position_idle : position .idle = 103 := rfl

/-- Inside a block fewer steps have been taken than the whole block has. -/
theorem position_lt {e : Eseq} (h : e ≠ .idle) : position e < 103 := by
  cases e with
  | idle => exact absurd rfl h
  | round dr ph done =>
    have hlen := doneLanes_length_le done
    have hphases : phasesBefore dr ph ≤ 19 := by
      cases ph with
      | col | diag => simp only [phasesBefore]; omega
    simp only [position, stepsTaken, Bool.toNat_true]
    omega
  | final | serial | done => decide

theorem position_le (e : Eseq) : position e ≤ 103 := by
  by_cases h : e = .idle
  · exact h ▸ le_rfl
  · exact (position_lt h).le

/-- An enabled step moves on by one. -/
theorem position_engineDo {a : EngineAct} {s : State} (ha : a ≠ .start) (he : a.enabled s.eseq = true) :
    position (engineDo a s).eseq = position s.eseq + 1 := by
  rw [engineDo_eseq]
  exact stepsTaken_nextEseq (fun _ => rfl) ha he

/-! ### Every schedule -/

/-- A schedule of the rest of a block: allowed steps, and no new block is begun (R147). -/
def Schedule (acts : List EngineAct) (s : State) : Prop := (∀ a ∈ acts, a ≠ .start) ∧ allowed acts s

theorem schedule_cons {a : EngineAct} {acts : List EngineAct} {s : State} :
    Schedule (a :: acts) s ↔ (a ≠ .start ∧ a.enabled s.eseq = true) ∧ Schedule acts (engineDo a s) := by
  rw [Schedule, Schedule, List.forall_mem_cons, allowed]
  tauto

/-- Along every schedule the registers hold what the block so far computes. -/
theorem Schedule.computed {acts : List EngineAct} {s : State} (h : Schedule acts s) (hs : Computed s) :
    Computed (engineRun acts s) := by
  induction acts generalizing s with
  | nil => exact hs
  | cons a rest ih =>
    obtain ⟨⟨ha, he⟩, hrest⟩ := schedule_cons.1 h
    exact ih hrest (computed_engineDo ha he hs)

/-- Every schedule that leads to a place of the block has the same number of steps of each kind. -/
theorem Schedule.stepsTaken_eq {p : EngineAct → Bool} (hp : LaneBlind p) {acts : List EngineAct} {s : State}
    (h : Schedule acts s) : stepsTaken p (engineRun acts s).eseq = stepsTaken p s.eseq + acts.countP p := by
  induction acts generalizing s with
  | nil => rfl
  | cons a rest ih =>
    obtain ⟨⟨ha, he⟩, hrest⟩ := schedule_cons.1 h
    have hcount : (a :: rest).countP p = rest.countP p + (p a).toNat := by
      rw [List.countP_cons]; cases p a <;> rfl
    rw [show engineRun (a :: rest) s = engineRun rest (engineDo a s) from rfl, ih hrest, engineDo_eseq,
      stepsTaken_nextEseq hp ha he, hcount]
    omega

/-- The length of a schedule is the way it leads. -/
theorem Schedule.position_eq {acts : List EngineAct} {s : State} (h : Schedule acts s) :
    position (engineRun acts s).eseq = position s.eseq + acts.length := by
  simpa [position] using h.stepsTaken_eq (p := fun _ => true) fun _ => rfl

/-- A schedule of a whole block has as many steps of a kind as the block. -/
theorem Schedule.countP_of_idle {p : EngineAct → Bool} (hp : LaneBlind p) {acts : List EngineAct} {s : State}
    (h : Schedule acts (engineStart s)) (hidle : (engineRun acts (engineStart s)).eseq = .idle) :
    acts.countP p = stepsTaken p .idle := by
  have hsteps := h.stepsTaken_eq hp
  rw [hidle] at hsteps
  simpa [stepsTaken, phasesBefore] using hsteps.symm

/-- What a schedule of a whole block leaves (R148). -/
theorem Schedule.eq_of_idle {acts : List EngineAct} {s : State} (h : Schedule acts (engineStart s))
    (hidle : (engineRun acts (engineStart s)).eseq = .idle) :
    engineRun acts (engineStart s) = { s with
      x := perm (sWords s)
      z := block (sWords s)
      ks := ksBytes (sWords s)
      eseq := .idle } := by
  have hframe : EngineFrame s _ := (engineDo_frame .start s).trans (engineRun_frame acts (engineStart s))
  have hc := h.computed (computed_engineStart s)
  simp only [Computed, hidle, hframe.sWords_eq] at hc
  obtain ⟨hx, hz, hks⟩ := hc
  rw [hframe, hx, hz, hks, hidle]

/-- Settles O11: the registers and the count of steps at each place of the block do not depend on the order of the lanes. -/
theorem everyScheduleDeliversTheKeystream : Obligations.EveryScheduleDeliversTheKeystream := by
  rintro s acts - hstart ⟨-, hallowed⟩
  have hsched : Schedule acts (engineStart s) := ⟨hstart, hallowed⟩
  have hpos := hsched.position_eq
  refine ⟨?_, (engineDo_frame .start s).trans (engineRun_frame acts _), fun hbusy => ⟨_, nextAct_enabled hbusy⟩,
    fun hidle => ?_⟩
  · have := position_le (engineRun acts (engineStart s)).eseq
    omega
  · have hcount {p : EngineAct → Bool} (hp : LaneBlind p) := hsched.countP_of_idle hp hidle
    refine ⟨?_, hcount fun _ => rfl, hcount (p := (· == .barrier)) fun _ => rfl, hcount (p := (· == .fadd)) fun _ => rfl,
      hcount (p := (· == .ser)) fun _ => rfl, hcount (p := (· == .take)) fun _ => rfl⟩
    show (engineRun acts (engineStart s)).ks = _
    rw [hsched.eq_of_idle hidle]

/-! ### The machine's own schedule -/

/-- The machine's own steps, as many as the block still has, are a schedule (R146, R147). -/
theorem run_is_schedule (k : Nat) (s : State) (h : position s.eseq + k ≤ 103) :
    ∃ acts, Schedule acts s ∧ acts.length = k ∧ core.run k s = .next (engineRun acts s) := by
  induction k generalizing s with
  | zero => exact ⟨[], ⟨by simp, trivial⟩, rfl, rfl⟩
  | succ k ih =>
    have hbusy : s.eseq ≠ .idle := fun he => by rw [he, position_idle] at h; omega
    obtain ⟨ha, he⟩ := nextAct_enabled hbusy
    obtain ⟨acts, hsched, hlen, hrun⟩ := ih (engineDo (nextAct s.eseq) s) (by rw [position_engineDo ha he]; omega)
    exact ⟨_ :: acts, schedule_cons.2 ⟨⟨ha, he⟩, hsched⟩, congrArg (· + 1) hlen,
      (run_succ_of_step core k (step_busy hbusy)).trans hrun⟩

/-- Settles O12: 103 of the machine's own steps are a schedule of a whole block. -/
theorem machineStepsFinishTheBlock : Obligations.MachineStepsFinishTheBlock := by
  intro s
  obtain ⟨acts, hsched, hlen, hrun⟩ := run_is_schedule 103 (engineStart s) (by rw [engineStart_eseq]; decide)
  have hidle : (engineRun acts (engineStart s)).eseq = .idle := by
    by_contra hbusy
    have hlt := position_lt hbusy
    rw [hsched.position_eq, hlen] at hlt
    omega
  exact hrun.trans (congrArg _ (hsched.eq_of_idle hidle))

end Sys2Proof.Proofs

/-! SUPPORT. PERM undone: QRINV through the entries of a double-round, the last first, ten times (R151). -/

namespace Sys2Proof.Proofs

open Sys2Proof.Machine

/-- QRINV through an entry undoes QRAPPLY with it (R112, R113). -/
@[simp] theorem qrUnapply_qrApply (x : Block) (t : Fin 8) : qrUnapply (qrApply x t) t = x := by
  rw [qrUnapply, readGroup_qrApply, qrInv_qr, qrApply, writeGroup_writeGroup, writeGroup_readGroup]

/-- QRAPPLY with an entry undoes QRINV through it (R112, R113). -/
@[simp] theorem qrApply_qrUnapply (x : Block) (t : Fin 8) : qrApply (qrUnapply x t) t = x := by
  rw [qrApply, qrUnapply, readGroup_writeGroup _ _ _ (group_distinct t), qr_qrInv, writeGroup_writeGroup,
    writeGroup_readGroup]

/-- The entries undone from 7 to 0, each the last that is left (R151). -/
theorem doubleRoundInv_leftInverse : Function.LeftInverse doubleRoundInv doubleRound := fun x => by
  simp [doubleRoundInv, doubleRound, diagRound, colRound]

theorem doubleRoundInv_rightInverse : Function.RightInverse doubleRoundInv doubleRound := fun x => by
  simp [doubleRoundInv, doubleRound, diagRound, colRound]

theorem doubleRounds_eq_iterate (n : Nat) (x : Block) : doubleRounds n x = doubleRound^[n] x := by
  induction n with
  | zero => rfl
  | succ n ih => rw [doubleRounds, ih, Function.iterate_succ_apply']

theorem permInv_eq_iterate (x : Block) : permInv x = doubleRoundInv^[10] x := by
  rw [permInv, List.foldl_const, List.length_range]

/-- Settles O17: a double-round is undone entry by entry, and PERM is ten of them. -/
theorem permutationIsABijection : Obligations.PermutationIsABijection := by
  refine ⟨fun x => ?_, fun x => ?_⟩
  · rw [perm, doubleRounds_eq_iterate, permInv_eq_iterate]
    exact doubleRoundInv_leftInverse.iterate 10 x
  · rw [perm, doubleRounds_eq_iterate, permInv_eq_iterate]
    exact doubleRoundInv_rightInverse.iterate 10 x

end Sys2Proof.Proofs

/-! SUPPORT. What steers control does not depend on secrets: two runs on states that agree on KEYED, IC, CTR, ESEQ, BASE, NBLK
and BI agree on them again, and answer with frames of one shape (R150, R245, R249). -/

namespace Sys2Proof.Proofs

open Sys2Proof.Machine Sys2Proof.Safety Sys2Proof.Laws

/-! ### The operations on two states that agree -/

theorem sameControl_raise {s t : State} (e : ErrorCode) (isInit : Bool) (h : SameControl s t) :
    SameControl (raise e isInit s) (raise e isInit t) := by
  obtain ⟨hk, hic, hctr, -, hbase, hnblk, hbi⟩ := h
  exact ⟨congrArg (· && !isInit) hk, hic, hctr, rfl, hbase, hnblk, hbi⟩

theorem sameControl_loadInstance {s t : State} (ctr : Word) (key key' nonce nonce' : List Byte) (h : SameControl s t) :
    SameControl (loadInstance ctr key nonce s) (loadInstance ctr key' nonce' t) := by
  obtain ⟨-, -, -, heseq, hbase, hnblk, hbi⟩ := h
  exact ⟨rfl, rfl, rfl, heseq, hbase, hnblk, hbi⟩

theorem sameControl_unkey {s t : State} (h : SameControl s t) :
    SameControl { s with keyed := false } { t with keyed := false } := by
  obtain ⟨-, hrest⟩ := h
  exact ⟨rfl, hrest⟩

theorem ctrLow_eq_of_sameControl {s t : State} (h : SameControl s t) : ctrLow s = ctrLow t := by
  obtain ⟨-, -, hctr, -⟩ := h
  exact congrArg (·.setWidth 32) hctr

theorem sameControl_advanceCursor {s t : State} (h : SameControl s t) :
    SameControl (advanceCursor s) (advanceCursor t) := by
  obtain ⟨hk, hic, hctr, hrest⟩ := h
  exact ⟨hk, hic, congrArg (· + 1) hctr, hrest⟩

theorem sameControl_beginData {s t : State} (base : Word) (blocks : Nat) (h : SameControl s t) :
    SameControl (beginData base blocks s) (beginData base blocks t) := by
  obtain ⟨hk, hic, hctr, heseq, -, -, hbi⟩ := h
  exact ⟨hk, hic, hctr, heseq, rfl, rfl, hbi⟩

theorem sameControl_beginChunk {s t : State} (i : Nat) (h : SameControl s t) :
    SameControl (beginChunk i s) (beginChunk i t) := by
  obtain ⟨hk, hic, hctr, heseq, hbase, hnblk, -⟩ := h
  exact ⟨hk, hic, hctr, heseq, hbase, hnblk, rfl⟩

/-- A block ends with the engine idle (R145, R160). -/
theorem sameControl_ksBlock {s t : State} (c c' : Word) (h : SameControl s t) :
    SameControl (ksBlock c s) (ksBlock c' t) := by
  obtain ⟨hk, hic, hctr, -, hrest⟩ := h
  rw [ksBlock_eq, ksBlock_eq]
  exact ⟨hk, hic, hctr, rfl, hrest⟩

/-- The number of turns of STREAMXOR is a function of the data's length (R164). -/
theorem sameControl_streamXor {s t : State} (base : Word) {d d' : List Byte} (hd : d.length = d'.length)
    (h : SameControl s t) : SameControl (streamXor base d s).1 (streamXor base d' t).1 := by
  rw [streamXor, streamXor, ← hd]
  exact List.foldl_rel (r := fun p q : Progress => SameControl p.1 q.1) (sameControl_beginData base _ h)
    fun i _ p q hpq => sameControl_ksBlock _ _ (sameControl_beginChunk i hpq)

/-- And so is that of the loop of ENCS (R174). -/
theorem sameControl_cursorXor {s t : State} {d d' : List Byte} (hd : d.length = d'.length)
    (h : SameControl s t) : SameControl (cursorXor d s).1 (cursorXor d' t).1 := by
  rw [cursorXor, cursorXor, ← hd, ← ctrLow_eq_of_sameControl h]
  exact List.foldl_rel (r := fun p q : Progress => SameControl p.1 q.1) (sameControl_beginData _ _ h)
    fun i _ p q hpq => sameControl_advanceCursor (sameControl_ksBlock _ _ (sameControl_beginChunk i hpq))

/-! ### Responses of one shape -/

/-- OK frames with payloads of one length have one header and one length (R77, R88). -/
theorem sameShape_ok {p p' : List Byte} (h : p.length = p'.length) : SameShape (Response.ok p).frame (Response.ok p').frame := by
  have htake (q : List Byte) : (Response.ok q).frame.take 9 = 0x00 :: natBytes 8 q.length := by
    simp [Response.frame]
  exact ⟨by simp [Response.frame, h], by rw [htake, htake, h]⟩

/-- Two outcomes that agree on control and on what is emitted, of runs from `s` and `t`. -/
def SameOutcome (s t : State) (o o' : Host.Outcome State Fault Refusal) : Prop :=
  ∃ s' t', o = .next s' ∧ o' = .next t' ∧ SameControl s' t' ∧ SameEmission s s' t t'

/-- Two refusals with the same error (R209). -/
theorem sameOutcome_raise {s t : State} (e : ErrorCode) (isInit : Bool) (h : SameControl s t) :
    SameOutcome s t (.next (raise e isInit s)) (.next (raise e isInit t)) :=
  ⟨_, _, rfl, rfl, sameControl_raise e isInit h, .inr ⟨_, _, rfl, rfl, rfl, rfl⟩⟩

/-- Two OK answers with payloads of one length (R88). -/
theorem sameOutcome_respond {s t u v : State} {p p' : List Byte} (hu : u.rspOut = s.rspOut) (hv : v.rspOut = t.rspOut)
    (hp : p.length = p'.length) (h : SameControl u v) :
    SameOutcome s t (.next (respond (.ok p) u)) (.next (respond (.ok p') v)) :=
  ⟨_, _, rfl, rfl, h, .inr ⟨_, _, congrArg (· ++ _) hu, congrArg (· ++ _) hv, sameShape_ok hp⟩⟩

/-- The two tests that every command but INIT makes come out alike (R208). -/
theorem sameOutcome_guarded {s t u v : State} {past past' : Bool} (h : SameControl s t) (hpast : past = past')
    (hok : SameOutcome s t (.next u) (.next v)) :
    SameOutcome s t
      (if s.keyed = false then .next (raise .notKeyed false s) else if past then .next (raise .counterOverflow false s)
        else .next u)
      (if t.keyed = false then .next (raise .notKeyed false t) else if past' then .next (raise .counterOverflow false t)
        else .next v) := by
  have ⟨hkeyed, _⟩ := h
  rw [← hpast, ← hkeyed]
  split_ifs
  · exact sameOutcome_raise _ _ h
  · exact sameOutcome_raise _ _ h
  · exact hok

/-! ### The instructions -/

/-- INIT tests the lengths of key and nonce alone (R170). -/
theorem sameOutcome_init {s t : State} (ctr : Word) {k k' n n' : List Byte} (hk : k.length = k'.length)
    (hn : n.length = n'.length) (h : SameControl s t) :
    SameOutcome s t (exec (.init ctr k n) s) (exec (.init ctr k' n') t) := by
  simp only [exec, execInit, ← hk, ← hn]
  split_ifs
  · exact sameOutcome_raise _ _ h
  · exact sameOutcome_raise _ _ h
  · exact sameOutcome_respond rfl rfl rfl (sameControl_loadInstance ctr k k' n n' (sameControl_unkey h))

theorem sameOutcome_ksb {s t : State} (ctr : Word) (h : SameControl s t) :
    SameOutcome s t (exec (.ksb ctr) s) (exec (.ksb ctr) t) :=
  sameOutcome_guarded (past := false) h rfl (sameOutcome_respond (ksBlock_loopFrame ctr s).rspOut
    (ksBlock_loopFrame ctr t).rspOut (by simp) (sameControl_ksBlock ctr ctr h))

theorem sameOutcome_next {s t : State} (h : SameControl s t) : SameOutcome s t (exec .next s) (exec .next t) := by
  have ⟨_, _, hctr, _⟩ := h
  have hpast : ctrExhausted s = ctrExhausted t := by rw [ctrExhausted, ctrExhausted, hctr]
  have hcontrol := sameControl_advanceCursor (sameControl_ksBlock (ctrLow s) (ctrLow t) h)
  have hsilent (u : State) : (advanceCursor (ksBlock (ctrLow u) u)).rspOut = u.rspOut := by
    rw [advanceCursor_rspOut, (ksBlock_loopFrame _ u).rspOut]
  exact sameOutcome_guarded h hpast (sameOutcome_respond (hsilent s) (hsilent t) (by simp) hcontrol)

/-- The range check reads the base and the data's length alone (R163, R173). -/
theorem sameOutcome_encc {s t : State} (base : Word) {d d' : List Byte} (hd : d.length = d'.length)
    (h : SameControl s t) :
    SameOutcome s t (exec (.encc base d) s) (exec (.encc base d') t) := by
  obtain ⟨hfs, -, -, hos⟩ := streamXor_spec base d s
  obtain ⟨hft, -, -, hot⟩ := streamXor_spec base d' t
  exact sameOutcome_guarded h (by rw [hd])
    (sameOutcome_respond hfs.rspOut hft.rspOut (by simp [hos, hot, hd]) (sameControl_streamXor base hd h))

/-- ENC is ENCC with the counter IC (R172). -/
theorem sameOutcome_enc {s t : State} {d d' : List Byte} (hd : d.length = d'.length) (h : SameControl s t) :
    SameOutcome s t (exec (.enc d) s) (exec (.enc d') t) := by
  have ⟨_, hic, _⟩ := h
  have hencc := sameOutcome_encc s.ic hd h
  rwa [show exec (.enc d') t = exec (.encc t.ic d') t from rfl, ← hic]

theorem sameOutcome_encs {s t : State} {d d' : List Byte} (hd : d.length = d'.length) (h : SameControl s t) :
    SameOutcome s t (exec (.encs d) s) (exec (.encs d') t) := by
  have ⟨_, _, hctr, _⟩ := h
  obtain ⟨hfs, -, -, hos⟩ := cursorXor_spec d s
  obtain ⟨hft, -, -, hot⟩ := cursorXor_spec d' t
  exact sameOutcome_guarded h (by rw [hd, hctr])
    (sameOutcome_respond hfs.rspOut hft.rspOut (by simp [hos, hot, hd]) (sameControl_cursorXor hd h))

/-- A table entry answers nothing and writes X alone (R115 to R122). -/
theorem sameOutcome_applyEntry {s t : State} (e : Fin 8) (h : SameControl s t) :
    SameOutcome s t (.next (applyEntry e s)) (.next (applyEntry e t)) :=
  ⟨_, _, rfl, rfl, h, .inl ⟨rfl, rfl⟩⟩

/-- One instruction on two states that agree on control. -/
theorem exec_sameOutcome (i : Instr) {s t : State} (h : SameControl s t) : SameOutcome s t (exec i s) (exec i t) := by
  cases i with
  | init ctr key nonce => exact sameOutcome_init ctr rfl rfl h
  | ksb ctr => exact sameOutcome_ksb ctr h
  | enc data => exact sameOutcome_enc rfl h
  | encc ctr data => exact sameOutcome_encc ctr rfl h
  | encs data => exact sameOutcome_encs rfl h
  | next => exact sameOutcome_next h
  | qc0 | qc1 | qc2 | qc3 | qd0 | qd1 | qd2 | qd3 => exact sameOutcome_applyEntry _ h

/-- Two instructions with the same public part are INIT, ENC, ENCC or ENCS with secrets of the same lengths, or the same
instruction (R249). -/
theorem exec_sameOutcome_of_samePublicPart {i j : Instr} {s t : State} (hij : SamePublicPart i j) (h : SameControl s t) :
    SameOutcome s t (exec i s) (exec j t) := by
  unfold SamePublicPart at hij
  split at hij
  · obtain ⟨rfl, hk, hn⟩ := hij
    exact sameOutcome_init _ hk hn h
  · exact sameOutcome_enc hij h
  · obtain ⟨rfl, hd⟩ := hij
    exact sameOutcome_encc _ hd h
  · exact sameOutcome_encs hij h
  · subst hij
    exact exec_sameOutcome _ h

/-! ### The engine -/

/-- A step of the engine takes two states that agree on control to such states: where the sequencer goes is a function of
where it stands (R150). -/
theorem sameControl_engineDo {s t : State} (a : EngineAct) (h : SameControl s t) :
    SameControl (engineDo a s) (engineDo a t) := by
  obtain ⟨hk, hic, hctr, heseq, hbase, hnblk, hbi⟩ := h
  have hs := engineDo_frame a s
  have ht := engineDo_frame a t
  have he : (engineDo a s).eseq = (engineDo a t).eseq := by rw [engineDo_eseq, engineDo_eseq, heseq]
  rw [EngineFrame] at hs ht
  rw [hs, ht]
  exact ⟨hk, hic, hctr, he, hbase, hnblk, hbi⟩

/-- Settles O45: the tests of every instruction, the loops and the sequencer read what steers control alone. -/
theorem controlDoesNotDependOnSecrets : Obligations.ControlDoesNotDependOnSecrets := by
  refine ⟨fun i j s t hij h => exec_sameOutcome_of_samePublicPart hij h, fun s t hbusy h => ?_⟩
  have ⟨_, _, _, heseq, _⟩ := h
  refine ⟨_, _, step_busy hbusy, step_busy (heseq ▸ hbusy), ?_, .inl ⟨engineDo_rspOut _ s, engineDo_rspOut _ t⟩⟩
  rw [← heseq]
  exact sameControl_engineDo _ h

end Sys2Proof.Proofs

/-! SUPPORT. STREAMXOR as one exclusive-or of the data with the keystream (R164): what each byte of the output is (R57,
R162), what zero data gives (R179), and that the stream splits at whole blocks (R180). -/

namespace Sys2Proof.Proofs

open Sys2Proof.Machine Sys2Proof.Safety

/-! ### The exclusive-or with a keystream (R162) -/

/-- The data past the end of the keystream has no part in the result. -/
theorem xorChunk_take_length (c ks : List Byte) : xorChunk (c.take ks.length) ks = xorChunk c ks := by
  have hlen : (xorChunk c ks).length ≤ ks.length := by simp [xorChunk]
  calc xorChunk (c.take ks.length) ks
      = (xorChunk c ks).take ks.length := by rw [xorChunk, xorChunk, List.take_zipWith, List.take_length]
    _ = xorChunk c ks := List.take_of_length_le hlen

/-- A keystream in two parts: the second part meets the data behind the first. -/
theorem xorChunk_append_right (c a b : List Byte) :
    xorChunk c (a ++ b) = xorChunk c a ++ xorChunk (c.drop a.length) b := by
  rw [← xorChunk_take_length c a, ← List.take_append_drop a.length (xorChunk c (a ++ b))]
  simp only [xorChunk, List.take_zipWith, List.drop_zipWith, List.take_left, List.drop_left]

/-- Zero data is keystream (R179). -/
theorem xorChunk_replicate_zero (n : Nat) (ks : List Byte) : xorChunk (List.replicate n 0) ks = ks.take n :=
  List.ext_getElem (by simp [xorChunk]) (by simp [xorChunk])

/-- A keystream that is long enough, applied twice, gives the data back (R178). -/
theorem xorChunk_xorChunk {c ks : List Byte} (h : c.length ≤ ks.length) : xorChunk (xorChunk c ks) ks = c :=
  List.ext_getElem (by simp [xorChunk, h]) (by simp [xorChunk])

/-! ### The keystream (R160, R164) -/

/-- The blocks of `n` counters from `base` on. -/
def keystream (key : Vector Word 8) (nonce : Vector Word 3) (base n : Nat) : List Byte :=
  (List.range n).flatMap fun i => keystreamBlock key nonce (BitVec.ofNat 32 (base + i))

section

variable (key : Vector Word 8) (nonce : Vector Word 3) (base : Nat)

@[simp] theorem keystream_zero : keystream key nonce base 0 = [] := rfl

@[simp] theorem keystream_one : keystream key nonce base 1 = keystreamBlock key nonce (BitVec.ofNat 32 base) := by
  simp [keystream]

theorem keystream_add (m n : Nat) :
    keystream key nonce base (m + n) = keystream key nonce base m ++ keystream key nonce (base + m) n := by
  simp only [keystream, List.range_add, List.flatMap_append, List.flatMap_map, Nat.add_assoc]

theorem keystream_succ (n : Nat) :
    keystream key nonce base (n + 1)
      = keystream key nonce base n ++ keystreamBlock key nonce (BitVec.ofNat 32 (base + n)) := by
  rw [keystream_add, keystream_one]

@[simp] theorem keystream_length (n : Nat) : (keystream key nonce base n).length = 64 * n := by
  simp [keystream, Nat.mul_comm]

/-- Byte `p` of the keystream is byte `p mod 64` of block `p div 64` (R57). -/
theorem keystream_getD {p n : Nat} (h : p < 64 * n) :
    (keystream key nonce base n).getD p 0
      = (keystreamBlock key nonce (BitVec.ofNat 32 (base + p / 64))).getD (p % 64) 0 := by
  induction n with
  | zero => omega
  | succ n ih =>
    rw [keystream_succ]
    by_cases hp : p < 64 * n
    · rw [List.getD_append _ _ _ _ (by simpa using hp), ih hp]
    · have hdiv : p / 64 = n := by omega
      have hmod : p % 64 = p - 64 * n := by omega
      rw [List.getD_append_right _ _ _ _ (by simpa using hp), keystream_length, hdiv, hmod]

/-! ### The stream (R164) -/

/-- The output of `n` turns is the data combined with `n` blocks. -/
theorem xorBlocks_eq_xorChunk (data : List Byte) (n : Nat) :
    xorBlocks key nonce base data n = xorChunk data (keystream key nonce base n) := by
  induction n with
  | zero => simp [xorChunk]
  | succ n ih =>
    have hchunk := xorChunk_take_length (data.drop (64 * n)) (keystreamBlock key nonce (BitVec.ofNat 32 (base + n)))
    rw [keystreamBlock_length] at hchunk
    rw [xorBlocks_succ, ih, keystream_succ, xorChunk_append_right, keystream_length, chunk_eq_take, hchunk]

theorem xorStream_eq_xorChunk (data : List Byte) :
    xorStream key nonce base data = xorChunk data (keystream key nonce base (numBlocks data.length)) :=
  xorBlocks_eq_xorChunk key nonce base data _

/-- The stream combines the data byte by byte with the blocks of the counters from `base` on (R57, R162, R164). -/
theorem xorStream_combinedFrom (data : List Byte) :
    CombinedFrom key nonce base data (xorStream key nonce base data) := by
  refine ⟨xorStream_length key nonce base data, fun p hp => ?_⟩
  have hks : p < 64 * numBlocks data.length := hp.trans_le (numBlocks_spec data.length).2
  rw [← keystream_getD key nonce base hks, xorStream_eq_xorChunk]
  simp [xorChunk, hp, hks]

/-- The stream undoes itself: the blocks are those of the same counters (R178). -/
theorem xorStream_xorStream (data : List Byte) :
    xorStream key nonce base (xorStream key nonce base data) = data := by
  rw [xorStream_eq_xorChunk, xorStream_length, xorStream_eq_xorChunk]
  exact xorChunk_xorChunk (by rw [keystream_length]; exact (numBlocks_spec data.length).2)

/-- Zero data gives the first bytes of the keystream (R179). -/
theorem xorStream_replicate_zero (n : Nat) :
    xorStream key nonce base (List.replicate n 0) = (keystream key nonce base (numBlocks n)).take n := by
  rw [xorStream_eq_xorChunk, List.length_replicate, xorChunk_replicate_zero]

/-- Sixty-four zero bytes give the block of the counter (R179). -/
theorem xorStream_replicate_64_zero :
    xorStream key nonce base (List.replicate 64 0) = keystreamBlock key nonce (BitVec.ofNat 32 base) := by
  rw [xorStream_replicate_zero, show numBlocks 64 = 1 from rfl, keystream_one]
  exact List.take_of_length_le (by simp)

/-- Whole blocks in front add their number to that of the blocks behind (R57). -/
theorem numBlocks_add (m len : Nat) : numBlocks (64 * m + len) = m + numBlocks len := by
  unfold numBlocks; omega

@[simp] theorem numBlocks_mul (m : Nat) : numBlocks (64 * m) = m := numBlocks_add m 0

/-- The stream splits at a whole number of blocks (R180). -/
theorem xorStream_append {m : Nat} {d1 : List Byte} (d2 : List Byte) (h : d1.length = 64 * m) :
    xorStream key nonce base (d1 ++ d2) = xorStream key nonce base d1 ++ xorStream key nonce (base + m) d2 := by
  have hlen : d1.length = (keystream key nonce base m).length := by rw [keystream_length, h]
  simp only [xorStream_eq_xorChunk, List.length_append, h, numBlocks_add, numBlocks_mul, keystream_add]
  exact List.zipWith_append hlen

/-! ### Counters are words (R5) -/

/-- A counter that is reduced before an addition makes the same word. -/
theorem ofNat_mod_add (c i : Nat) : BitVec.ofNat 32 (c % 2 ^ 32 + i) = BitVec.ofNat 32 (c + i) := by
  apply BitVec.eq_of_toNat_eq
  simp

/-- The stream depends on its first counter as a word. -/
theorem xorStream_mod (data : List Byte) :
    xorStream key nonce (base % 2 ^ 32) data = xorStream key nonce base data := by
  simp only [xorStream, ofNat_mod_add]

end

end Sys2Proof.Proofs

/-! SUPPORT. The commands of a keyed core: completion with all that a command writes, and the refusal past the last
counter (R171 to R175, R203). -/

namespace Sys2Proof.Proofs

open Sys2Proof.Machine Sys2Proof.Safety

/-! ### Answers and refusals -/

/-- A refusal of a command other than INIT writes no register but ESEQ (R209, R210). -/
theorem raise_false_eq_refusedWith (e : ErrorCode) (s : State) : raise e false s = refusedWith e.status s := by
  simp only [raise, respond, refusedWith, Bool.not_false, Bool.and_true]
  rfl

/-- An OK response after a computation that leaves the response channel. -/
theorem answersOk_respond {s t : State} (payload : List Byte) (h : t.rspOut = s.rspOut) :
    AnswersOk s (respond (.ok payload) t) payload := congrArg (· ++ [okFrame payload]) h

theorem keepsInstance_respond {s t : State} (r : Response) (h : LoopFrame s t) : KeepsInstance s (respond r t) :=
  ⟨h.key, h.nonce, h.ic, h.keyed, h.cmdIn⟩

/-- S[12] after a loop (R43). -/
theorem bc_of_loopRegisters {s t : State} {base len : Nat} (h : LoopRegisters s t base (numBlocks len)) :
    t.bc = counterWordAfter s base len := by
  rw [h.bc, counterWordAfter]
  by_cases hlen : len = 0
  · simp [hlen]
  · have hpos : 0 < numBlocks len := by unfold numBlocks; omega
    rw [if_neg hpos.ne', if_neg hlen, ← Nat.add_sub_assoc hpos]
    rfl

/-- What a data command completes with after its loop, whatever the loop's counters (R39, R43, R88). -/
theorem respond_after_loop {s t : State} {base len : Nat} (payload : List Byte) (hf : LoopFrame s t)
    (hr : LoopRegisters s t base (numBlocks len)) :
    AnswersOk s (respond (.ok payload) t) payload ∧ KeepsInstance s (respond (.ok payload) t) ∧
      (respond (.ok payload) t).bc = counterWordAfter s base len ∧
      (s.eseq = .idle → (respond (.ok payload) t).eseq = .idle) :=
  ⟨answersOk_respond payload hf.rspOut, keepsInstance_respond _ hf, (respond_bc ..).trans (bc_of_loopRegisters hr),
    fun hidle => (respond_eseq ..).trans (idle_of_loopRegisters hr hidle)⟩

/-- The range check passes when there is no block, or every block has a counter (R163, R203). -/
theorem ovfCheck_eq_false_iff (base len : Nat) :
    ovfCheck base len = false ↔ numBlocks len = 0 ∨ base + numBlocks len ≤ 2 ^ 32 := by
  refine ⟨numBlocks_of_ovfCheck, fun h => ?_⟩
  rw [← Bool.not_eq_true, ovfCheck_iff]
  rintro ⟨i, hi, hpast⟩
  omega

theorem ovfCheck_of_inRange {base : Nat} {data : List Byte}
    (h : data = [] ∨ base + (data.length + 63) / 64 ≤ 2 ^ 32) : ovfCheck base data.length = false :=
  (ovfCheck_eq_false_iff ..).mpr (h.imp_left fun hnil => by rw [hnil]; rfl)

theorem ovfCheck_of_pastRange {base : Nat} {data : List Byte} (hne : data ≠ [])
    (h : 2 ^ 32 < base + (data.length + 63) / 64) : ovfCheck base data.length = true := by
  have hpos : 0 < data.length := List.length_pos_iff.mpr hne
  rw [← Bool.not_eq_false, ovfCheck_eq_false_iff, numBlocks]
  omega

/-! ### KSB (R171) -/

theorem exec_ksb_of_keyed (c : Word) {s : State} (hk : s.keyed = true) :
    exec (.ksb c) s = .next (respond (.ok (keystreamBlock s.key s.nonce c)) (ksBlock c s)) := by
  simp [exec, execKsb, hk]

/-- What one block with the counter `c` leaves in the registers, but for X, Z, KS and the cursor (R34, R160). -/
structure BlockFrame (c : Word) (s t : State) : Prop extends LoopFrame s t where
  bc : t.bc = c
  eseq : t.eseq = .idle
  base : t.base = s.base
  nblk : t.nblk = s.nblk
  bi : t.bi = s.bi

theorem ksBlock_blockFrame (c : Word) (s : State) : BlockFrame c s (ksBlock c s) := by
  rw [ksBlock_eq]
  exact ⟨⟨rfl, rfl, rfl, rfl, rfl, rfl⟩, rfl, rfl, rfl, rfl, rfl⟩

theorem BlockFrame.advanceCursor {c : Word} {s t : State} (h : BlockFrame c s t) :
    BlockFrame c s (advanceCursor t) :=
  ⟨⟨h.key, h.nonce, h.ic, h.keyed, h.cmdIn, h.rspOut⟩, h.bc, h.eseq, h.base, h.nblk, h.bi⟩

theorem advanceCursor_ctr_of_eq {s t : State} (h : t.ctr = s.ctr) : (advanceCursor t).ctr = s.ctr + 1 := by
  rw [advanceCursor_ctr, h]

/-- What KSB and NEXT complete with after their block. It is said of any state `t`, since a block that is written out
would be evaluated. -/
theorem respond_after_block {c : Word} {s t : State} {cursor : BitVec 33} (payload : List Byte) (h : BlockFrame c s t)
    (hctr : t.ctr = cursor) :
    AnswersOk s (respond (.ok payload) t) payload ∧ KeepsInstance s (respond (.ok payload) t) ∧
      (respond (.ok payload) t).ctr = cursor ∧ (respond (.ok payload) t).bc = c ∧
      (respond (.ok payload) t).eseq = .idle ∧ (respond (.ok payload) t).base = s.base ∧
      (respond (.ok payload) t).nblk = s.nblk ∧ (respond (.ok payload) t).bi = s.bi :=
  ⟨answersOk_respond payload h.rspOut, keepsInstance_respond _ h.toLoopFrame, hctr, h.bc, h.eseq, h.base, h.nblk, h.bi⟩

/-- Settles O25: the meaning of KSB on a keyed core is one block, which writes S[12] and the engine's registers alone. -/
theorem ksbReturnsTheBlock : Obligations.KsbReturnsTheBlock := fun c s hk =>
  ⟨_, exec_ksb_of_keyed c hk, respond_after_block _ (ksBlock_blockFrame c s) (ksBlock_ctr c s)⟩

/-! ### ENCC and ENC (R172, R173) -/

theorem exec_encc_inRange {ctr : Word} {data : List Byte} {s : State} (hk : s.keyed = true)
    (ho : ovfCheck ctr.toNat data.length = false) :
    exec (.encc ctr data) s
      = .next (respond (.ok (xorStream s.key s.nonce ctr.toNat data)) (streamXor ctr data s).1) := by
  obtain ⟨-, -, -, hout⟩ := streamXor_spec ctr data s
  simp [exec, execEncc, hk, ho, hout]

theorem exec_encc_pastRange {ctr : Word} {data : List Byte} {s : State} (hk : s.keyed = true)
    (ho : ovfCheck ctr.toNat data.length = true) : exec (.encc ctr data) s = .next (refusedWith 0x03 s) := by
  simp [exec, execEncc, hk, ho, raise_false_eq_refusedWith, ErrorCode.status]

/-- Settles O27: the loop from the operand on, or the refusal when the range check raises. -/
theorem enccStartsAtItsOperand : Obligations.EnccStartsAtItsOperand := by
  refine fun ctr data s hk => ⟨fun hin => ?_, fun hne hpast => ?_⟩
  · obtain ⟨hframe, hregs, hctr, -⟩ := streamXor_spec ctr data s
    obtain ⟨hanswer, hkeeps, hbc, hidle⟩ := respond_after_loop (xorStream s.key s.nonce ctr.toNat data) hframe hregs
    exact ⟨_, _, exec_encc_inRange hk (ovfCheck_of_inRange hin), hanswer, xorStream_combinedFrom .., hkeeps, hctr, hbc,
      hidle⟩
  · exact exec_encc_pastRange hk (ovfCheck_of_pastRange hne hpast)

/-- ENC is ENCC with the initial counter as its operand. -/
theorem exec_enc_eq_encc (data : List Byte) (s : State) : exec (.enc data) s = exec (.encc s.ic data) s := rfl

/-- Settles O26: ENC is ENCC from IC on. -/
theorem encStartsAtTheInitialCounter : Obligations.EncStartsAtTheInitialCounter := by
  intro data s hk
  rw [exec_enc_eq_encc]
  exact enccStartsAtItsOperand s.ic data s hk

/-! ### ENCS (R174) -/

/-- What the loop of ENCS does, in terms of the whole cursor: only its low word counts, as the counter of a block is a
word. -/
theorem cursorXor_spec_ctr (data : List Byte) (s : State) :
    LoopFrame s (cursorXor data s).1 ∧
      LoopRegisters s (cursorXor data s).1 s.ctr.toNat (numBlocks data.length) ∧
      (cursorXor data s).1.ctr = s.ctr + BitVec.ofNat 33 (numBlocks data.length) ∧
      (cursorXor data s).2 = xorStream s.key s.nonce s.ctr.toNat data := by
  obtain ⟨hframe, ⟨hbc, heseq⟩, hctr, hout⟩ := cursorXor_spec data s
  rw [ctrLow_toNat, ofNat_mod_add] at hbc
  rw [ctrLow_toNat, xorStream_mod] at hout
  exact ⟨hframe, ⟨hbc, heseq⟩, hctr, hout⟩

theorem exec_encs_inRange {data : List Byte} {s : State} (hk : s.keyed = true)
    (ho : ovfCheck s.ctr.toNat data.length = false) :
    exec (.encs data) s
      = .next (respond (.ok (xorStream s.key s.nonce s.ctr.toNat data)) (cursorXor data s).1) := by
  obtain ⟨-, -, -, hout⟩ := cursorXor_spec_ctr data s
  simp [exec, execEncs, hk, ho, hout]

theorem exec_encs_pastRange {data : List Byte} {s : State} (hk : s.keyed = true)
    (ho : ovfCheck s.ctr.toNat data.length = true) : exec (.encs data) s = .next (refusedWith 0x03 s) := by
  simp [exec, execEncs, hk, ho, raise_false_eq_refusedWith, ErrorCode.status]

/-- The cursor of 33 bits does not wrap while every block has a counter (R28). -/
theorem ctr_add_toNat {s : State} {n : Nat} (h : n = 0 ∨ s.ctr.toNat + n ≤ 2 ^ 32) :
    (s.ctr + BitVec.ofNat 33 n).toNat = s.ctr.toNat + n := advance_ctr_toNat (v := viewOf s) h

/-- Settles O28: the loop from the cursor on, or the refusal when the range check raises. -/
theorem encsAdvancesTheCursor : Obligations.EncsAdvancesTheCursor := by
  refine fun data s hk => ⟨fun hin => ?_, fun hne hpast => ?_⟩
  · obtain ⟨hframe, hregs, hctr, -⟩ := cursorXor_spec_ctr data s
    obtain ⟨hanswer, hkeeps, hbc, hidle⟩ := respond_after_loop (xorStream s.key s.nonce s.ctr.toNat data) hframe hregs
    have ho := ovfCheck_of_inRange hin
    refine ⟨_, _, exec_encs_inRange hk ho, hanswer, xorStream_combinedFrom .., hkeeps, ?_, hbc, hidle⟩
    rw [respond_ctr, hctr]
    exact ctr_add_toNat (numBlocks_of_ovfCheck ho)
  · exact exec_encs_pastRange hk (ovfCheck_of_pastRange hne hpast)

/-! ### NEXT (R175) -/

theorem exec_next_inRange {s : State} (hk : s.keyed = true) (h : s.ctr.toNat ≤ 0xFFFFFFFF) :
    exec .next s = .next (respond (.ok (keystreamBlock s.key s.nonce (BitVec.ofNat 32 s.ctr.toNat)))
      (advanceCursor (ksBlock (ctrLow s) s))) := by
  have hex : ctrExhausted s = false := decide_eq_false (Nat.not_lt.mpr h)
  simp [exec, execNext, hk, hex, ctrLow]

theorem exec_next_pastRange {s : State} (hk : s.keyed = true) (h : 0xFFFFFFFF < s.ctr.toNat) :
    exec .next s = .next (refusedWith 0x03 s) := by
  have hex : ctrExhausted s = true := decide_eq_true h
  simp [exec, execNext, hk, hex, raise_false_eq_refusedWith, ErrorCode.status]

/-- Settles O29: one block of the cursor's counter, or the refusal when the cursor is exhausted. -/
theorem nextReturnsTheCursorsBlock : Obligations.NextReturnsTheCursorsBlock := by
  refine fun s hk => ⟨fun hin => ?_, exec_next_pastRange hk⟩
  have hcursor : (advanceCursor (ksBlock (ctrLow s) s)).ctr = s.ctr + 1 :=
    advanceCursor_ctr_of_eq (ksBlock_ctr (ctrLow s) s)
  have hnext : (s.ctr + 1).toNat = s.ctr.toNat + 1 := ctr_add_toNat (n := 1) (.inr (by omega))
  have hlow : (ctrLow s).toNat = s.ctr.toNat := (ctrLow_toNat s).trans (Nat.mod_eq_of_lt (by omega))
  obtain ⟨hanswer, hkeeps, hctr, hbc, hworking⟩ := respond_after_block
    (keystreamBlock s.key s.nonce (BitVec.ofNat 32 s.ctr.toNat)) (ksBlock_blockFrame (ctrLow s) s).advanceCursor hcursor
  exact ⟨_, exec_next_inRange hk hin, hanswer, hkeeps, (congrArg BitVec.toNat hctr).trans hnext,
    (congrArg BitVec.toNat hbc).trans hlow, hworking⟩

end Sys2Proof.Proofs

/-! SUPPORT. What the answers of the commands have to do with each other: round trips (R176, R178), zero data (R179) and
splitting at whole blocks (R180), each read off the effect of the command on the view. -/

namespace Sys2Proof.Proofs

open Sys2Proof.Machine Sys2Proof.Safety

/-! ### OK answers -/

theorem hasEffect_of_exec {i : Instr} {s t : State} (h : exec i s = .next t) : HasEffect s t (effect i (viewOf s)) := by
  obtain ⟨u, hu, he⟩ := exec_effect i s
  cases hu.symm.trans h
  exact he

/-- The frames of responses differ where the responses do, in status or payload (R77, R87). -/
theorem frame_eq_okFrame_iff (r : Response) (payload : List Byte) : r.frame = okFrame payload ↔ r = .ok payload := by
  refine ⟨fun h => ?_, fun h => h ▸ rfl⟩
  cases r with
  | ok p => simpa [okFrame, Response.frame] using congrArg (List.drop 9) h
  | error e =>
    obtain ⟨hstatus, -⟩ := List.cons.inj h
    cases e <;> simp [ErrorCode.status] at hstatus

/-- A command that is keyed and whose counters are in range answers OK. -/
theorem HasEffect.answersOk {s t : State} {v after : View} {past : Bool} {payload : List Byte}
    (h : HasEffect s t (v.guarded past payload after)) (hk : v.keyed = true) (hp : past = false) :
    AnswersOk s t payload ∧ viewOf t = after := by
  have hpass : v.guarded past payload after = (some (.ok payload), after) := by simp [View.guarded, hk, hp]
  rw [hpass] at h
  exact ⟨h.rspOut, h.view⟩

/-- An OK answer comes from a command that passed both tests. -/
theorem HasEffect.of_answersOk {s t : State} {v after : View} {past : Bool} {payload out : List Byte}
    (h : HasEffect s t (v.guarded past payload after)) (ha : AnswersOk s t out) :
    past = false ∧ payload = out ∧ viewOf t = after := by
  obtain ⟨hview, hrsp, -, -⟩ := h
  have hframe := List.append_cancel_left (hrsp.symm.trans ha)
  unfold View.guarded at hframe hview
  split_ifs at hframe hview with hk hp
  · simp [frame_eq_okFrame_iff] at hframe
  · simp [frame_eq_okFrame_iff] at hframe
  · exact ⟨by simpa using hp, by simpa [frame_eq_okFrame_iff] using hframe, hview⟩

/-! ### Decryption (R176, R178) -/

/-- What ENCC put out in one state, ENCC with the same counter takes back in every state with the same view. -/
theorem encc_undoes_encc {ctr : Word} {p c : List Byte} {s t u : State} (hk : s.keyed = true)
    (h : exec (.encc ctr p) s = .next t) (ha : AnswersOk s t c) (hu : viewOf u = viewOf s) :
    ∃ w, exec (.encc ctr c) u = .next w ∧ AnswersOk u w p := by
  obtain ⟨hpast, rfl, -⟩ := (hasEffect_of_exec h).of_answersOk ha
  obtain ⟨w, hw, heff⟩ := exec_effect (.encc ctr (xorStream s.key s.nonce ctr.toNat p)) u
  rw [hu] at heff
  obtain ⟨hanswer, -⟩ := heff.answersOk hk (by simpa using hpast)
  simp only [viewOf_inst, instanceOf_key, instanceOf_nonce, xorStream_xorStream] at hanswer
  exact ⟨w, hw, hanswer⟩

/-- ENCC leaves the view, whatever it answers (R173). -/
theorem viewOf_of_encc {ctr : Word} {p : List Byte} {s t : State} (h : exec (.encc ctr p) s = .next t) :
    viewOf t = viewOf s := by
  obtain ⟨r, he⟩ := effect_stateless (viewOf s) (.inr (.inr ⟨ctr, p, rfl⟩))
  rw [(hasEffect_of_exec h).view, he]

/-- Settles O32: ENC is ENCC from IC on, and ENCC undoes itself in every state with the same view. -/
theorem decryptionUndoesEncryption : Obligations.DecryptionUndoesEncryption := by
  refine fun s t p c hk ha => ⟨fun h => ?_, fun ctr h => ?_⟩
  · rw [exec_enc_eq_encc] at h
    have hview := viewOf_of_encc h
    have hic : t.ic = s.ic := congrArg (fun v => v.inst.ic) hview
    simp only [Instr.dec, exec_enc_eq_encc, hic]
    exact ⟨encc_undoes_encc hk h ha rfl, encc_undoes_encc hk h ha hview⟩
  · exact ⟨encc_undoes_encc hk h ha rfl, encc_undoes_encc hk h ha (viewOf_of_encc h)⟩

/-! ### Zero data (R179) -/

/-- For one block the range check is that of its counter. -/
theorem ovfCheck_64 (base : Nat) : ovfCheck base 64 = decide (maxCounter < base) := rfl

/-- KSTR of one block does what KSB does (R92, R179). -/
theorem effect_kstr_64 (c : Word) (v : View) : effect (Instr.kstr c 64) v = effect (.ksb c) v := by
  have hin : ovfCheck c.toNat 64 = false := by
    have := c.isLt
    rw [ovfCheck_64, decide_eq_false_iff_not, maxCounter]
    omega
  simp only [Instr.kstr, effect, List.length_replicate, hin, xorStream_replicate_64_zero, BitVec.ofNat_toNat,
    BitVec.setWidth_eq]

/-- ENCS of one block of zeros does what NEXT does (R179). -/
theorem effect_encs_64_zero (v : View) : effect (.encs (List.replicate 64 0)) v = effect .next v := by
  simp only [effect, List.length_replicate, ovfCheck_64, View.exhausted, xorStream_replicate_64_zero,
    BitVec.ofNat_toNat, BitVec.setWidth_eq, show numBlocks 64 = 1 from rfl]

/-- Two instructions with one effect answer alike and leave the same view. -/
theorem exec_agree_of_effect_eq {i j : Instr} {s : State} (h : effect i (viewOf s) = effect j (viewOf s)) :
    ∃ t u, exec i s = .next t ∧ exec j s = .next u ∧ t.rspOut = u.rspOut ∧ viewOf t = viewOf u := by
  obtain ⟨t, ht, hi⟩ := exec_effect i s
  obtain ⟨u, hu, hj⟩ := exec_effect j s
  exact ⟨t, u, ht, hu, by rw [hi.rspOut, hj.rspOut, h], by rw [hi.view, hj.view, h]⟩

/-- Settles O33: the stream of zeros is the keystream, so one block of zeros has the effect of KSB or NEXT. -/
theorem zeroDataIsKeystream : Obligations.ZeroDataIsKeystream := by
  refine ⟨xorStream_replicate_zero, fun s c => ?_, fun s => ?_⟩
  · obtain ⟨t, u, ht, hu, hrsp, -⟩ := exec_agree_of_effect_eq (effect_kstr_64 c (viewOf s))
    exact ⟨t, u, ht, hu, hrsp⟩
  · obtain ⟨t, u, ht, hu, hrsp, hview⟩ := exec_agree_of_effect_eq (effect_encs_64_zero (viewOf s))
    exact ⟨t, u, ht, hu, hrsp, congrArg (fun v => v.inst.ctr) hview⟩

/-! ### Splitting (R180) -/

/-- The effect of ENCS, in terms of the whole cursor. -/
theorem effect_encs (data : List Byte) (v : View) :
    effect (.encs data) v = v.guarded (ovfCheck v.inst.ctr.toNat data.length)
      (xorStream v.inst.key v.inst.nonce v.inst.ctr.toNat data) (v.advance (numBlocks data.length)) := by
  rw [effect, BitVec.toNat_setWidth, xorStream_mod]

/-- ENCS in range answers and advances the cursor. -/
theorem exec_encs_answersOk {data : List Byte} {s : State} {v : View} (hv : viewOf s = v) (hk : v.keyed = true)
    (ho : ovfCheck v.inst.ctr.toNat data.length = false) :
    ∃ t, exec (.encs data) s = .next t ∧
      AnswersOk s t (xorStream v.inst.key v.inst.nonce v.inst.ctr.toNat data) ∧
      viewOf t = v.advance (numBlocks data.length) := by
  obtain ⟨t, ht, heff⟩ := exec_effect (.encs data) s
  rw [hv, effect_encs] at heff
  exact ⟨t, ht, heff.answersOk hk ho⟩

/-- Advancing twice is advancing by the sum. -/
theorem advance_advance (v : View) (m n : Nat) : (v.advance m).advance n = v.advance (m + n) := by
  simp only [View.advance, BitVec.add_assoc, BitVec.ofNat_add]

/-- Settles O34: the first part uses the blocks in front, and its cursor is where the second part's blocks begin. -/
theorem dataSplitsAtWholeBlocks : Obligations.DataSplitsAtWholeBlocks := by
  refine ⟨fun key nonce base m d1 d2 h => xorStream_append key nonce base d2 h, ?_⟩
  intro s t m d1 d2 out hk hlen h ha
  have heff := hasEffect_of_exec h
  rw [effect_encs] at heff
  obtain ⟨hwhole, rfl, hview⟩ := heff.of_answersOk ha
  rw [List.length_append, hlen, numBlocks_add] at hview
  have hin : m + numBlocks d2.length = 0 ∨ s.ctr.toNat + (m + numBlocks d2.length) ≤ 2 ^ 32 := by
    rwa [List.length_append, hlen, ovfCheck_eq_false_iff, numBlocks_add] at hwhole
  have hctr : ((viewOf s).advance m).inst.ctr.toNat = s.ctr.toNat + m :=
    advance_ctr_toNat (by simp only [viewOf_inst, instanceOf_ctr]; omega)
  obtain ⟨u, hu, hanswer1, hview1⟩ := exec_encs_answersOk (data := d1) (s := s) rfl hk
    (by rw [ovfCheck_eq_false_iff, hlen, numBlocks_mul]; simp only [viewOf_inst, instanceOf_ctr]; omega)
  rw [hlen, numBlocks_mul] at hview1
  obtain ⟨w, hw, hanswer2, hview2⟩ := exec_encs_answersOk (data := d2) hview1 hk
    (by rw [ovfCheck_eq_false_iff, hctr]; omega)
  rw [hctr] at hanswer2
  rw [advance_advance, ← hview] at hview2
  exact ⟨u, w, _, _, hu, hw, hanswer1, hanswer2, xorStream_append _ _ _ d2 hlen, congrArg (fun v => v.inst.ctr) hview2⟩

end Sys2Proof.Proofs

/-! SUPPORT. Errors (R200 to R215): a frame meets the refusal that R208's table names first, and one that no line of the table
names is answered OK. -/

namespace Sys2Proof.Proofs

open Sys2Proof.Machine Sys2Proof.Safety Sys2Proof.Laws

/-- Settles O9: waiting, the answer to a frame and a step of the engine each have a next state. -/
theorem everyStepHasANextState : Obligations.EveryStepHasANextState := by
  intro s
  rcases step_cases s with ⟨-, -, hwait⟩ | ⟨f, rest, -, -, hframe⟩ | ⟨a, -, -, hengine⟩
  · exact ⟨s, hwait⟩
  · obtain ⟨t, ht, -⟩ := stepFrame_effect f { s with cmdIn := rest }
    exact ⟨t, hframe.trans ht⟩
  · exact ⟨_, hengine⟩

/-! ### What a frame with or without an error is answered -/

/-- `o` is the outcome, in the state `s`, of a frame whose first error is `e`: that refusal, or an OK answer if there is
none (R208, R209). -/
def Answers (s : State) (isInit : Bool) (e : Option ErrorCode) (o : Host.Outcome State Fault Refusal) : Prop :=
  match e with
  | some e => o = .next (raise e isInit s)
  | none => ∃ t payload, o = .next t ∧ AnswersOk s t payload

/-- `o` is the outcome of a command that makes the two tests of R208, KEYED and then the counter range check `past`, before
it computes its payload. -/
def Guarded (s : State) (past : Bool) (o : Host.Outcome State Fault Refusal) : Prop :=
  ∃ payload t, t.rspOut = s.rspOut ∧
    o = if s.keyed = false then .next (raise .notKeyed false s)
      else if past then .next (raise .counterOverflow false s)
      else .next (respond (.ok payload) t)

theorem Guarded.answers {s : State} {past : Bool} {o : Host.Outcome State Fault Refusal} (h : Guarded s past o) :
    Answers s false
      (if s.keyed = false then some .notKeyed else if past then some .counterOverflow else none) o := by
  obtain ⟨payload, t, hrsp, rfl⟩ := h
  split_ifs
  · rfl
  · rfl
  · exact ⟨_, payload, rfl, answersOk_respond payload hrsp⟩

/-- KEYED is tested first, so a core without a key refuses whatever the counters are (R204). -/
theorem Guarded.of_unkeyed {s : State} {past : Bool} {o : Host.Outcome State Fault Refusal} (h : Guarded s past o)
    (hk : s.keyed = false) : o = .next (refusedWith 0x04 s) := by
  obtain ⟨payload, t, -, rfl⟩ := h
  rw [if_pos hk, raise_false_eq_refusedWith, ErrorCode.status]

/-! ### The commands other than INIT (R171 to R175) -/

theorem exec_ksb_guarded (c : Word) (s : State) : Guarded s false (exec (.ksb c) s) :=
  ⟨_, _, (ksBlock_loopFrame c s).rspOut, rfl⟩

theorem exec_encc_guarded (ctr : Word) (data : List Byte) (s : State) :
    Guarded s (ovfCheck ctr.toNat data.length) (exec (.encc ctr data) s) :=
  ⟨_, _, (streamXor_spec ctr data s).1.rspOut, rfl⟩

theorem exec_enc_guarded (data : List Byte) (s : State) :
    Guarded s (ovfCheck s.ic.toNat data.length) (exec (.enc data) s) :=
  exec_enc_eq_encc data s ▸ exec_encc_guarded s.ic data s

theorem exec_encs_guarded (data : List Byte) (s : State) :
    Guarded s (ovfCheck s.ctr.toNat data.length) (exec (.encs data) s) :=
  ⟨_, _, (cursorXor_spec data s).1.rspOut, rfl⟩

theorem exec_next_guarded (s : State) : Guarded s (ctrExhausted s) (exec .next s) :=
  ⟨_, _, (ksBlock_blockFrame (ctrLow s) s).advanceCursor.rspOut, rfl⟩

/-- Settles O24: each of the five commands tests KEYED first. -/
theorem unkeyedCoreRefuses : Obligations.UnkeyedCoreRefuses := fun s hk =>
  ⟨fun c => (exec_ksb_guarded c s).of_unkeyed hk, fun d => (exec_enc_guarded d s).of_unkeyed hk,
    fun c d => (exec_encc_guarded c d s).of_unkeyed hk, fun d => (exec_encs_guarded d s).of_unkeyed hk,
    (exec_next_guarded s).of_unkeyed hk⟩

/-! ### INIT (R170) -/

theorem exec_init_answers (ctr : Word) (key nonce : List Byte) (s : State) :
    Answers s true
      (if key.length ≠ 32 then some .invalidKeyLength
        else if nonce.length ≠ 12 then some .invalidNonceLength else none)
      (exec (.init ctr key nonce) s) := by
  simp only [exec, execInit]
  split_ifs
  · rfl
  · rfl
  · exact ⟨_, [], rfl, rfl⟩

/-- A refusal of INIT clears KEYED and writes no other register but ESEQ (R209, R210). -/
theorem raise_true_eq_refusedWith (e : ErrorCode) (s : State) :
    raise e true s = { refusedWith e.status s with keyed := false } := by
  simp only [raise, respond, refusedWith, Bool.not_true, Bool.and_false]
  rfl

/-- Settles O23: the two length tests, the key's first. -/
theorem failedInitLeavesTheCoreUnkeyed : Obligations.FailedInitLeavesTheCoreUnkeyed := by
  intro ctr key nonce s
  have h := exec_init_answers ctr key nonce s
  refine ⟨fun hk => ?_, fun hk hn => ?_⟩
  · rw [if_pos hk] at h
    exact h.trans (congrArg _ (raise_true_eq_refusedWith .invalidKeyLength s))
  · rw [if_neg (not_not.mpr hk), if_pos hn] at h
    exact h.trans (congrArg _ (raise_true_eq_refusedWith .invalidNonceLength s))

/-! ### R208's table against the tests of the commands -/

/-- The range check as R203 words it. -/
theorem ovfCheck_eq_decide (base len : Nat) :
    ovfCheck base len = (decide (0 < len) && decide (2 ^ 32 < base + (len + 63) / 64)) := by
  rw [Bool.eq_iff_iff, ← Bool.not_eq_false, ovfCheck_eq_false_iff, numBlocks]
  simp only [Bool.and_eq_true, decide_eq_true_eq]
  omega

theorem ctrExhausted_eq_decide (s : State) : ctrExhausted s = decide (2 ^ 32 ≤ s.ctr.toNat) := rfl

/-- A defined opcode other than INIT's names a command that makes the range check of R203 for that opcode. -/
theorem exec_commandOf_guarded {f : Frame} (hop : ¬ ReservedOpcode (byteAt f 0)) (hinit : byteAt f 0 ≠ 0x01) (s : State) :
    Guarded s (counterPastRange s f) (exec (commandOf f) s) := by
  simp only [commandOf, counterPastRange, dataLength, headerLength, if_neg hinit]
  rcases opcode_cases hop with hb | hb | hb | hb | hb | hb
  · exact absurd hb hinit
  · simpa [hb] using exec_ksb_guarded (fieldCtr32 f) s
  · simpa [hb, ovfCheck_eq_decide] using exec_enc_guarded (f.drop 9) s
  · simpa [hb, ovfCheck_eq_decide] using exec_encc_guarded (fieldCtr32 f) (f.drop 13) s
  · simpa [hb, ovfCheck_eq_decide] using exec_encs_guarded (f.drop 9) s
  · simpa [hb, ctrExhausted_eq_decide] using exec_next_guarded s

/-- In a frame of INIT's format the key and the nonce are as long as the header says (R74, R84). -/
theorem commandOf_init_lengths {f : Frame} (hb : byteAt f 0 = 0x01) (hl : legalLength f = true) :
    ((f.drop 7).take (fieldKlen f)).length = fieldKlen f ∧ (f.drop (7 + fieldKlen f)).length = fieldNlen f := by
  simp only [legalLength, headerLength, declaredPayload, hb, if_true, Bool.and_eq_true, decide_eq_true_eq] at hl
  simp only [List.length_take, List.length_drop]
  omega

theorem isInitFrame_iff (f : Frame) : isInitFrame f = true ↔ f ≠ [] ∧ byteAt f 0 = 0x01 := by
  rw [isInitFrame, Bool.and_eq_true, decide_eq_true_eq, decide_eq_true_eq, List.length_pos_iff]

/-- A command is refused with the first error of its frame, or completes (R208). -/
theorem exec_commandOf_answers {f : Frame} (hne : f ≠ []) (hop : ¬ ReservedOpcode (byteAt f 0)) (hl : legalLength f = true)
    (s : State) : Answers s (isInitFrame f) (firstError s f) (exec (commandOf f) s) := by
  rw [firstError, if_neg (by simpa using hne), if_neg hop, if_neg (by simp [hl])]
  by_cases hb : byteAt f 0 = 0x01
  · have h := exec_init_answers (fieldCtr32 f) ((f.drop 7).take (fieldKlen f)) (f.drop (7 + fieldKlen f)) s
    obtain ⟨hkey, hnonce⟩ := commandOf_init_lengths hb hl
    rw [hkey, hnonce] at h
    rw [(isInitFrame_iff f).mpr ⟨hne, hb⟩]
    simpa [commandOf, counterPastRange, hb] using h
  · have hinit : isInitFrame f = false := Bool.eq_false_iff.mpr fun h => hb ((isInitFrame_iff f).mp h).2
    simpa only [hinit, hb, ne_eq, not_false_eq_true, true_and, false_and, if_false]
      using (exec_commandOf_guarded hop hb s).answers

/-- A frame is answered with the first error of R208's table, or OK if none applies. -/
theorem stepFrame_answers (f : Frame) (s : State) :
    Answers s (isInitFrame f) (firstError s f) (stepFrame f s) := by
  by_cases hne : f = []
  · rw [hne]
    rfl
  by_cases hop : ReservedOpcode (byteAt f 0)
  · rw [firstError, if_neg (by simpa using hne), if_pos hop, stepFrame, decodeFrame_reserved hne hop]
    rfl
  cases hl : legalLength f with
  | false =>
    rw [firstError, if_neg (by simpa using hne), if_neg hop, if_pos hl, stepFrame, decodeFrame_defined hne hop]
    simp [hl, Answers]
  | true =>
    rw [stepFrame, decodeFrame_defined hne hop, if_pos hl]
    exact exec_commandOf_answers hne hop hl s

/-! ### The step -/

/-- The response frame of an error is the nine bytes of R211, with the status byte of R87. -/
theorem frame_error (e : ErrorCode) : (Response.error e).frame = errorFrame (statusByte (some e)) := by
  cases e <;> rfl

/-- An idle core answers the frame at the head of the channel; the frames behind it have no part in its first error. -/
theorem step_answers {s : State} {f : Frame} {rest : List Frame} (hi : s.eseq = .idle) (hc : s.cmdIn = f :: rest) :
    Answers { s with cmdIn := rest } (isInitFrame f) (firstError s f) (step s) := by
  rw [step_idle_cons hi hc]
  exact stepFrame_answers f { s with cmdIn := rest }

/-- Settles O36: the status byte of the refusal, or that of OK. -/
theorem firstErrorDecidesTheStatus : Obligations.FirstErrorDecidesTheStatus := by
  intro s f rest hi hc
  have h := step_answers hi hc
  cases he : firstError s f with
  | none =>
    rw [he] at h
    obtain ⟨t, payload, ht, hok⟩ := h
    exact ⟨t, okFrame payload, ht, hok, rfl⟩
  | some e =>
    rw [he] at h
    exact ⟨_, (Response.error e).frame, h, rfl, by rw [frame_error]; rfl⟩

/-- Settles O37: the refusal sequence, whose ESEQ is that of an idle core. -/
theorem errorsChangeNothingButKeyed : Obligations.ErrorsChangeNothingButKeyed := by
  intro s f rest e hi hc he
  have h := step_answers hi hc
  rw [he] at h
  have hkeyed : (s.keyed && !isInitFrame f) = if f ≠ [] ∧ byteAt f 0 = 0x01 then false else s.keyed := by
    simp only [← isInitFrame_iff]
    cases isInitFrame f <;> simp
  rw [h, raise, respond, frame_error, hkeyed, ← hi]

end Sys2Proof.Proofs

/-! SUPPORT. Hazards: between two frames an idle core holds its registers (R221, R246). -/

namespace Sys2Proof.Proofs

/-- Settles O8: idle, the core fetches nothing from an empty command channel, and the step waits. -/
theorem idleCoreWaits : Obligations.IdleCoreWaits := by
  intro s hidle hempty
  exact step_idle_nil hidle hempty

end Sys2Proof.Proofs
